-- ==== Sys2Proof/Word.lean ====
section
/-! DEFINITION. The widths of the block's values (00_scope.md R7, 30_encoding.md R81) and how a truth value becomes a
flag byte. -/

namespace Sys2Proof

/-- A byte of `MEM`, a general register, a timer, the field `kk`. -/
abbrev Byte := BitVec 8

/-- A 16-bit value: `I`, `PC`, a `STACK` entry. -/
abbrev Word := BitVec 16

/-- A 16-bit opcode (R80). -/
abbrev Opcode := BitVec 16

/-- A 4-bit field: `x`, `y` (register numbers), `n`; also `WAITREG`. -/
abbrev Nibble := BitVec 4

/-- The 12-bit field `nnn`. -/
abbrev Addr := BitVec 12

end Sys2Proof
end

