-- ==== Sys2Proof/Syntax.lean ====
section
/-! DEFINITION. The 34 instructions of 30_encoding.md R86, one constructor per row, in the table's order. An operand has
exactly the width of its opcode field (R81), so every term is an instruction some opcode encodes. -/

namespace Sys2Proof

/-- An instruction. `x`, `y` are register numbers, `kk` an unsigned byte, `nnn` an address, `n` a row count. -/
inductive Instr where
  /-- `00E0` CLS (R140) -/
  | cls
  /-- `00EE` RET (R115) -/
  | ret
  /-- `1nnn` JP nnn (R116) -/
  | jp (nnn : Addr)
  /-- `2nnn` CALL nnn (R117) -/
  | call (nnn : Addr)
  /-- `3xkk` SE Vx, kk (R120) -/
  | seByte (x : Nibble) (kk : Byte)
  /-- `4xkk` SNE Vx, kk (R121) -/
  | sneByte (x : Nibble) (kk : Byte)
  /-- `5xy0` SE Vx, Vy (R122) -/
  | seReg (x y : Nibble)
  /-- `6xkk` LD Vx, kk (R125) -/
  | ldByte (x : Nibble) (kk : Byte)
  /-- `7xkk` ADD Vx, kk (R126) -/
  | addByte (x : Nibble) (kk : Byte)
  /-- `8xy0` LD Vx, Vy (R130) -/
  | ldReg (x y : Nibble)
  /-- `8xy1` OR Vx, Vy (R131) -/
  | orReg (x y : Nibble)
  /-- `8xy2` AND Vx, Vy (R132) -/
  | andReg (x y : Nibble)
  /-- `8xy3` XOR Vx, Vy (R133) -/
  | xorReg (x y : Nibble)
  /-- `8xy4` ADD Vx, Vy (R134) -/
  | addReg (x y : Nibble)
  /-- `8xy5` SUB Vx, Vy (R135) -/
  | subReg (x y : Nibble)
  /-- `8xy6` SHR Vx (R136); `y` is in the opcode and ignored (R89) -/
  | shr (x y : Nibble)
  /-- `8xy7` SUBN Vx, Vy (R137) -/
  | subnReg (x y : Nibble)
  /-- `8xyE` SHL Vx (R138); `y` is in the opcode and ignored (R89) -/
  | shl (x y : Nibble)
  /-- `9xy0` SNE Vx, Vy (R123) -/
  | sneReg (x y : Nibble)
  /-- `Annn` LD I, nnn (R127) -/
  | ldI (nnn : Addr)
  /-- `Bnnn` JP V0, nnn (R118) -/
  | jpV0 (nnn : Addr)
  /-- `Cxkk` RND Vx, kk (R128) -/
  | rnd (x : Nibble) (kk : Byte)
  /-- `Dxyn` DRW Vx, Vy, n (R141) -/
  | drw (x y n : Nibble)
  /-- `Ex9E` SKP Vx (R145) -/
  | skp (x : Nibble)
  /-- `ExA1` SKNP Vx (R146) -/
  | sknp (x : Nibble)
  /-- `Fx07` LD Vx, DT (R150) -/
  | ldVxDt (x : Nibble)
  /-- `Fx0A` LD Vx, K (R147) -/
  | ldVxK (x : Nibble)
  /-- `Fx15` LD DT, Vx (R151) -/
  | ldDtVx (x : Nibble)
  /-- `Fx18` LD ST, Vx (R152) -/
  | ldStVx (x : Nibble)
  /-- `Fx1E` ADD I, Vx (R153) -/
  | addIVx (x : Nibble)
  /-- `Fx29` LD F, Vx (R154) -/
  | ldFVx (x : Nibble)
  /-- `Fx33` LD B, Vx (R155) -/
  | ldBVx (x : Nibble)
  /-- `Fx55` LD [I], Vx (R156) -/
  | ldMemVx (x : Nibble)
  /-- `Fx65` LD Vx, [I] (R157) -/
  | ldVxMem (x : Nibble)
  deriving DecidableEq, Repr

end Sys2Proof
end

