-- ==== Sys2Proof/WellFormed.lean ====
section
/-! DEFINITION. Which opcodes are well formed: the match and mask columns of 30_encoding.md R86, read as the table
writes them and independently of the decoder. A term of `Instr` needs no check of its own: each operand has the width of
its field. What can be ill formed on this hardware is an opcode (R88), and this file says which. -/

namespace Sys2Proof

/-- One row of R86: `op` selects the row when `op & mask = match`. -/
structure OpcodeRow where
  pattern : Opcode
  mask : Opcode
  deriving DecidableEq, Repr

/-- "An opcode `op` selects the row when `op & mask = match`" (R86). -/
def OpcodeRow.selects (r : OpcodeRow) (op : Opcode) : Bool := op &&& r.mask == r.pattern

/-- Rows with a fixed opcode and rows selected by the family nibble alone (R83). -/
def opcodeRowsPlain : List OpcodeRow :=
  [⟨0x00E0, 0xFFFF⟩, ⟨0x00EE, 0xFFFF⟩, ⟨0x1000, 0xF000⟩, ⟨0x2000, 0xF000⟩, ⟨0x3000, 0xF000⟩, ⟨0x4000, 0xF000⟩,
   ⟨0x6000, 0xF000⟩, ⟨0x7000, 0xF000⟩, ⟨0xA000, 0xF000⟩, ⟨0xB000, 0xF000⟩, ⟨0xC000, 0xF000⟩, ⟨0xD000, 0xF000⟩]

/-- Rows selected by family and low nibble (families 5, 8, 9). -/
def opcodeRowsNibble : List OpcodeRow :=
  [⟨0x5000, 0xF00F⟩, ⟨0x8000, 0xF00F⟩, ⟨0x8001, 0xF00F⟩, ⟨0x8002, 0xF00F⟩, ⟨0x8003, 0xF00F⟩, ⟨0x8004, 0xF00F⟩,
   ⟨0x8005, 0xF00F⟩, ⟨0x8006, 0xF00F⟩, ⟨0x8007, 0xF00F⟩, ⟨0x800E, 0xF00F⟩, ⟨0x9000, 0xF00F⟩]

/-- Rows selected by family and low byte (families E, F). -/
def opcodeRowsByte : List OpcodeRow :=
  [⟨0xE09E, 0xF0FF⟩, ⟨0xE0A1, 0xF0FF⟩, ⟨0xF007, 0xF0FF⟩, ⟨0xF00A, 0xF0FF⟩, ⟨0xF015, 0xF0FF⟩, ⟨0xF018, 0xF0FF⟩,
   ⟨0xF01E, 0xF0FF⟩, ⟨0xF029, 0xF0FF⟩, ⟨0xF033, 0xF0FF⟩, ⟨0xF055, 0xF0FF⟩, ⟨0xF065, 0xF0FF⟩]

/-- The 34 rows of R86. -/
def opcodeRows : List OpcodeRow := opcodeRowsPlain ++ opcodeRowsNibble ++ opcodeRowsByte

/-- An opcode is well formed when it selects a row; every other opcode is illegal (R88). -/
def Opcode.wellFormed (op : Opcode) : Bool := opcodeRows.any (fun r => r.selects op)

end Sys2Proof
end

