-- ==== Sys2Proof/Decode.lean ====
section
/-! DEFINITION. The decoder, total on all opcodes and all byte lists (30_encoding.md R81 to R84, R88; byte order
20_memory.md R62), and after it the encoder of R92. -/

namespace Sys2Proof

/-- The family, `op[15:12]` (R81). -/
def fieldF (op : Opcode) : Nibble := op.extractLsb' 12 4
/-- `x = op[11:8]` (R81). -/
def fieldX (op : Opcode) : Nibble := op.extractLsb' 8 4
/-- `y = op[7:4]` (R81). -/
def fieldY (op : Opcode) : Nibble := op.extractLsb' 4 4
/-- `n = op[3:0]`, the low nibble (R81, 90_conflicts.md C1). -/
def fieldN (op : Opcode) : Nibble := op.extractLsb' 0 4
/-- `kk = op[7:0]` (R81). -/
def fieldKK (op : Opcode) : Byte := op.extractLsb' 0 8
/-- `nnn = op[11:0]` (R81). -/
def fieldNNN (op : Opcode) : Addr := op.extractLsb' 0 12

/-- What decoding answers: an instruction, or why there is none, by name. -/
inductive Decoded where
  /-- the opcode is exactly this instruction -/
  | ok (i : Instr)
  /-- the opcode matches no row of R86: raised as InvalidOpcode by the cycle (R88) -/
  | invalidOpcode (op : Opcode)
  /-- fewer than the two bytes an opcode has: never met by the cycle, which fetches two (R103) -/
  | truncated
  deriving DecidableEq, Repr

/-- The sub-opcodes of family 8, "keyed by low nibble" (R84). -/
def decodeAlu (op : Opcode) : Decoded :=
  let x := fieldX op
  let y := fieldY op
  match (fieldN op).toNat with
  | 0x0 => .ok (.ldReg x y)
  | 0x1 => .ok (.orReg x y)
  | 0x2 => .ok (.andReg x y)
  | 0x3 => .ok (.xorReg x y)
  | 0x4 => .ok (.addReg x y)
  | 0x5 => .ok (.subReg x y)
  | 0x6 => .ok (.shr x y)
  | 0x7 => .ok (.subnReg x y)
  | 0xE => .ok (.shl x y)
  | _ => .invalidOpcode op

/-- The sub-opcodes of family E, keyed by low byte (R84). -/
def decodeKeys (op : Opcode) : Decoded :=
  match (fieldKK op).toNat with
  | 0x9E => .ok (.skp (fieldX op))
  | 0xA1 => .ok (.sknp (fieldX op))
  | _ => .invalidOpcode op

/-- The sub-opcodes of family F, keyed by low byte (R84). -/
def decodeMisc (op : Opcode) : Decoded :=
  let x := fieldX op
  match (fieldKK op).toNat with
  | 0x07 => .ok (.ldVxDt x)
  | 0x0A => .ok (.ldVxK x)
  | 0x15 => .ok (.ldDtVx x)
  | 0x18 => .ok (.ldStVx x)
  | 0x1E => .ok (.addIVx x)
  | 0x29 => .ok (.ldFVx x)
  | 0x33 => .ok (.ldBVx x)
  | 0x55 => .ok (.ldMemVx x)
  | 0x65 => .ok (.ldVxMem x)
  | _ => .invalidOpcode op

/-- The decode procedure of R84, total on all 65536 opcodes (R83). -/
def decodeOpcode (op : Opcode) : Decoded :=
  match (fieldF op).toNat with
  | 0x0 => if op = 0x00E0#16 then .ok .cls else if op = 0x00EE#16 then .ok .ret else .invalidOpcode op
  | 0x1 => .ok (.jp (fieldNNN op))
  | 0x2 => .ok (.call (fieldNNN op))
  | 0x3 => .ok (.seByte (fieldX op) (fieldKK op))
  | 0x4 => .ok (.sneByte (fieldX op) (fieldKK op))
  | 0x5 => if fieldN op = 0#4 then .ok (.seReg (fieldX op) (fieldY op)) else .invalidOpcode op
  | 0x6 => .ok (.ldByte (fieldX op) (fieldKK op))
  | 0x7 => .ok (.addByte (fieldX op) (fieldKK op))
  | 0x8 => decodeAlu op
  | 0x9 => if fieldN op = 0#4 then .ok (.sneReg (fieldX op) (fieldY op)) else .invalidOpcode op
  | 0xA => .ok (.ldI (fieldNNN op))
  | 0xB => .ok (.jpV0 (fieldNNN op))
  | 0xC => .ok (.rnd (fieldX op) (fieldKK op))
  | 0xD => .ok (.drw (fieldX op) (fieldY op) (fieldN op))
  | 0xE => decodeKeys op
  | 0xF => decodeMisc op
  | _ => .invalidOpcode op -- no other value of four bits

/-- The opcode of two bytes in ascending address order: the first is the high byte (R62). -/
def opcodeOfBytes (hi lo : Byte) : Opcode := hi.setWidth 16 <<< 8 ||| lo.setWidth 16

/-- Decode the first instruction of a list of bytes. -/
def decode : List Byte → Decoded
  | hi :: lo :: _ => decodeOpcode (opcodeOfBytes hi lo)
  | _ => .truncated

/-- FIXED and NNN rows: family and 12 bits (R82, R92). -/
def encodeNNN (f : Nibble) (nnn : Addr) : Opcode := f.setWidth 16 <<< 12 ||| nnn.setWidth 16
/-- XKK and XSUB rows: family, register, byte or sub-opcode (R82, R92). -/
def encodeXKK (f x : Nibble) (kk : Byte) : Opcode := f.setWidth 16 <<< 12 ||| x.setWidth 16 <<< 8 ||| kk.setWidth 16
/-- XYN rows: family, two registers, sub-opcode or count (R82, R92). -/
def encodeXYN (f x y n : Nibble) : Opcode :=
  f.setWidth 16 <<< 12 ||| x.setWidth 16 <<< 8 ||| y.setWidth 16 <<< 4 ||| n.setWidth 16

/-- The opcode of an instruction (R92), each fixed nibble as its pattern in R86 has it. -/
def encodeOpcode : Instr → Opcode
  | .cls => encodeNNN 0x0 0x0E0
  | .ret => encodeNNN 0x0 0x0EE
  | .jp nnn => encodeNNN 0x1 nnn
  | .call nnn => encodeNNN 0x2 nnn
  | .seByte x kk => encodeXKK 0x3 x kk
  | .sneByte x kk => encodeXKK 0x4 x kk
  | .seReg x y => encodeXYN 0x5 x y 0x0
  | .ldByte x kk => encodeXKK 0x6 x kk
  | .addByte x kk => encodeXKK 0x7 x kk
  | .ldReg x y => encodeXYN 0x8 x y 0x0
  | .orReg x y => encodeXYN 0x8 x y 0x1
  | .andReg x y => encodeXYN 0x8 x y 0x2
  | .xorReg x y => encodeXYN 0x8 x y 0x3
  | .addReg x y => encodeXYN 0x8 x y 0x4
  | .subReg x y => encodeXYN 0x8 x y 0x5
  | .shr x y => encodeXYN 0x8 x y 0x6
  | .subnReg x y => encodeXYN 0x8 x y 0x7
  | .shl x y => encodeXYN 0x8 x y 0xE
  | .sneReg x y => encodeXYN 0x9 x y 0x0
  | .ldI nnn => encodeNNN 0xA nnn
  | .jpV0 nnn => encodeNNN 0xB nnn
  | .rnd x kk => encodeXKK 0xC x kk
  | .drw x y n => encodeXYN 0xD x y n
  | .skp x => encodeXKK 0xE x 0x9E
  | .sknp x => encodeXKK 0xE x 0xA1
  | .ldVxDt x => encodeXKK 0xF x 0x07
  | .ldVxK x => encodeXKK 0xF x 0x0A
  | .ldDtVx x => encodeXKK 0xF x 0x15
  | .ldStVx x => encodeXKK 0xF x 0x18
  | .addIVx x => encodeXKK 0xF x 0x1E
  | .ldFVx x => encodeXKK 0xF x 0x29
  | .ldBVx x => encodeXKK 0xF x 0x33
  | .ldMemVx x => encodeXKK 0xF x 0x55
  | .ldVxMem x => encodeXKK 0xF x 0x65

/-- The two bytes of an opcode in ascending address order, high byte first (R62). -/
def opcodeBytes (op : Opcode) : List Byte := [op.extractLsb' 8 8, op.extractLsb' 0 8]

/-- The bytes of an instruction: always two (R80). -/
def encode (i : Instr) : List Byte := opcodeBytes (encodeOpcode i)

/-- The opcode of a table word of `nbits` bits, bit 0 its least significant bit; bits above `nbits` are 0. -/
def tableOpcode (nbits w : Nat) : Opcode := BitVec.ofNat 16 (w % 2 ^ nbits)

/-- The instruction the decoder reads from a word numbered as spec/opcode_table.json numbers it: the word is laid out as
the hardware stores it (high byte first) and the bytes are decoded. -/
def decodeTableWord (nbits w : Nat) : Option Instr :=
  match decode (opcodeBytes (tableOpcode nbits w)) with
  | .ok i => some i
  | .invalidOpcode _ => none
  | .truncated => none

end Sys2Proof
end

