-- ==== Sys2Proof/Config.lean ====
section
/-! DEFINITION. What is fixed for one machine, and the values the spec leaves free (00_scope.md R8). The font table, whose
bytes a run can read, is in Machine/Font.lean. -/

namespace Sys2Proof

/-- `PROG_BASE`: where the program image is loaded and where execution starts (R7). -/
def Config.progBase : Word := 0x200#16

/-- The default of `CYCLES_PER_FRAME` (R8). The value in force is `Params.cyclesPerFrame`, any natural number. -/
def Config.defaultCyclesPerFrame : Nat := 15

/-- The random byte `rnd` of the `k`-th draw (10_state.md R38, 43_load_add_rand.md R128). A FREE VALUE: no body, so a
claim holds whatever byte it is. Log entry 2. -/
opaque Config.rnd : Nat → Byte

/-- `keys_in` of the `k`-th frame when no input has been placed for it (48_frame.md R161). A FREE VALUE. Log entry 3. -/
opaque Config.keysIn : Nat → BitVec 16

/-- `pause_toggle` of the `k`-th frame when no input has been placed for it (R162). A FREE VALUE. Log entry 3. -/
opaque Config.pauseToggle : Nat → Bool

/-- `reset_req` of the `k`-th frame when no input has been placed for it (R163). A FREE VALUE. Log entry 3. -/
opaque Config.resetReq : Nat → Bool

end Sys2Proof
end

