-- ==== Sys2Proof/Machine/State.lean ====
section
/-! DEFINITION. The state of the block (10_state.md R20, R41), as plain data; what can stop a step; the state after
reset (70_reset_and_hazards.md R200). -/

namespace Sys2Proof.Machine

/-- `MODE` (R35). -/
inductive Mode where
  | running | awaitingKey | faulted | paused
  deriving DecidableEq, Repr

/-- `FAULT_CAUSE` (R37, 60_exceptions.md R175). -/
inductive FaultCause where
  | none | outOfBounds | invalidOpcode | stackOverflow | stackUnderflow | dataOutOfBounds | keyOutOfRange
  deriving DecidableEq, Repr

/-- Where in the frame of 48_frame.md R160 the machine stands. The model's own (log entry 1). -/
inductive Phase where
  /-- before step 1: the next step samples the inputs -/
  | frameStart
  /-- in step 3: at most `left` more calls of the cycle, then steps 4 and 5 -/
  | cycles (left : Nat)
  deriving DecidableEq, Repr

/-- The three ports sampled at step 1 of a frame (R40). Bit `k` of `keysIn` is key `k`. -/
structure FrameInput where
  keysIn : BitVec 16
  pauseToggle : Bool
  resetReq : Bool
  deriving DecidableEq, Repr

/-- The four output ports (R41). Bit `64*y + x` of `disp` is `DISP[y][x]`. -/
structure Outputs where
  disp : BitVec 2048
  mode : BitVec 2
  faultCause : BitVec 3
  soundTimer : Byte
  deriving DecidableEq, Repr

/-- The parameters of one machine (00_scope.md R8): the loaded program image `ROM`, the font table `FONT` (10_state.md R23)
and `CYCLES_PER_FRAME`. No step changes them. -/
structure Params where
  rom : List Byte
  font : Vector Byte 80
  cyclesPerFrame : Nat
  deriving DecidableEq, Repr

/-- `MEM` (R22): the bytes that differ from what an unlisted address reads as (`Memory.unlisted`), addresses rising. -/
abbrev Memory := List Host.Cell

/-- `V[0]`..`V[15]` (R24). -/
abbrev Regs := Vector Byte 16

/-- `STACK[0]`..`STACK[15]` (R31). -/
abbrev Stack := Vector Word 16

/-- `DISP` (R33): bit `64*y + x` is `DISP[y][x]`, as on the port `disp_out` (R41). -/
abbrev Display := BitVec 2048

/-- The whole machine: the state of R20, the output ports of R41, and the model's own fields. -/
structure State where
  /-- `MEM` -/
  mem : Memory
  /-- `V[0]`..`V[15]`; `VF` is `V[15]` -/
  v : Regs
  /-- `I` -/
  i : Word
  /-- `PC` -/
  pc : Word
  /-- `STACK[0]`..`STACK[15]` -/
  stack : Stack
  /-- `SP`, 0..16: how many entries are in use -/
  sp : Fin 17
  /-- `DT`, the delay timer -/
  dt : Byte
  /-- `ST`, the sound timer -/
  st : Byte
  /-- `DISP` -/
  disp : Display
  /-- `KEYS`: bit `k` is `KEYS[k]` -/
  keys : BitVec 16
  /-- `MODE` -/
  mode : Mode
  /-- `WAITREG` -/
  waitReg : Nibble
  /-- `FAULT_CAUSE` -/
  faultCause : FaultCause
  /-- the output ports, stable from step 5 of a frame to step 5 of the next (R41) -/
  out : Outputs
  /-- model's own: where in the frame the machine stands -/
  phase : Phase
  /-- model's own: how many random bytes have been drawn -/
  draws : Nat
  /-- model's own: how many frames have begun -/
  frameNo : Nat
  /-- model's own: inputs placed for the coming frames, oldest first -/
  inputs : List FrameInput
  /-- the machine's parameters -/
  params : Params
  deriving DecidableEq, Repr

/-- Reasons a step could stop the MODEL. There is none: the spec gives every state a defined cycle and a defined frame
(R168, R178; "No behaviour of this block is treated as `stuck`", 93_implementation_defined.md), and a fault of the BLOCK is
a next state with `MODE` Faulted (R177). -/
inductive Fault where
  deriving DecidableEq, Repr

/-- Reasons the model could have no meaning for an instruction. -/
inductive Refusal where
  /-- raised by an arm of `exec` whose instruction has no meaning yet; no arm raises it. Safe: the machine stops. -/
  | notModelled (mnemonic : String)
  deriving DecidableEq, Repr

/-- The state after reset (R200) with an empty `ROM`, the default `FONT` and the default `CYCLES_PER_FRAME`: everything zero, `PC` = 0x200,
`MODE` Running, memory with nothing listed (that font and zeros are what unlisted addresses read as). A run then begins
with a frame (R168). The output ports' values before the first frame ends are log entry 6. -/
def State.reset : State :=
  { mem := [], v := Vector.replicate 16 0, i := 0, pc := Config.progBase, stack := Vector.replicate 16 0, sp := 0,
    dt := 0, st := 0, disp := 0, keys := 0, mode := .running, waitReg := 0, faultCause := .none,
    out := { disp := 0, mode := 0, faultCause := 0, soundTimer := 0 },
    phase := .frameStart, draws := 0, frameNo := 0, inputs := [],
    params := { rom := [], font := defaultFont, cyclesPerFrame := Config.defaultCyclesPerFrame } }

end Sys2Proof.Machine
end

