-- ==== Sys2Proof/Machine/Ops.lean ====
section
/-! DEFINITION. The named operations over memory, registers, stack, display and control state: every read and write of
the state goes through one of them. Taking a fault (60_exceptions.md R177) is ONE operation here, `State.raise`; there is no
return from a fault (R182): the only way out of Faulted is reset, `State.reload`, which stands beside it. -/

namespace Sys2Proof.Machine

/-! ### Memory (20_memory.md) -/

/-- What an address not listed reads as: its content after reset with an empty `ROM` and the default `FONT`, the font at
0x000..0x04F and zero elsewhere (R22, R61). With another `FONT`, `State.load` lists the bytes that differ. -/
def Memory.unlisted (a : Nat) : Byte := font.getD a 0

/-- `MEM[a]` (R65: a read has no side effect and returns the last value written, or the load value). -/
def Memory.byte : Memory → Nat → Byte
  | [], a => Memory.unlisted a
  | (b, w) :: m, a => if a = b then w else Memory.byte m a

/-- `MEM[a] <- v`, keeping the canonical form: a byte equal to what the address reads as unlisted is not listed. -/
def Memory.put : Memory → Nat → Byte → Memory
  | [], a, v => if v = Memory.unlisted a then [] else [(a, v)]
  | (b, w) :: m, a, v =>
    if a < b then
      if v = Memory.unlisted a then (b, w) :: m else (a, v) :: (b, w) :: m
    else if a = b then
      if v = Memory.unlisted a then m else (a, v) :: m
    else (b, w) :: Memory.put m a v

/-- Consecutive bytes in ascending address order (R69: "the writes of one instruction take effect in ascending address
order"). -/
def Memory.putList : Memory → Nat → List Byte → Memory
  | m, _, [] => m
  | m, a, b :: bs => Memory.putList (m.put a b) (a + 1) bs

/-- `n` consecutive bytes from `a`, lowest address first. -/
def Memory.bytes (m : Memory) : Nat → Nat → List Byte
  | _, 0 => []
  | a, n + 1 => m.byte a :: m.bytes (a + 1) n

/-- The canonical form from address `lo` on: addresses rising and inside `MEM`, no entry equal to what the address reads
as unlisted. -/
def Memory.wfFrom : Nat → Memory → Bool
  | _, [] => true
  | lo, (a, v) :: m => decide (lo ≤ a) && decide (a ≤ 0xFFF) && decide (v ≠ Memory.unlisted a) && Memory.wfFrom (a + 1) m

/-- The canonical form of a memory. -/
def Memory.wf (m : Memory) : Bool := Memory.wfFrom 0 m

/-- Bounds (R66): an access of `n` bytes from `a` is inside `MEM` when it touches no address above 0xFFF. An access of
zero bytes touches none. Addresses are never reduced modulo 4096. -/
def rangeOk (a n : Nat) : Bool := decide (n = 0 ∨ a + n ≤ 0x1000)

/-- Read `n` bytes from `a`; none when the range is not inside `MEM` (R66, R67: "the whole range of the instruction is
checked before any byte is read or written"). -/
def Memory.load? (m : Memory) (a n : Nat) : Option (List Byte) :=
  if rangeOk a n then some (m.bytes a n) else none

/-- Write bytes from `a` in ascending order; none, and nothing written, when the range is not inside `MEM` (R66, R67). -/
def Memory.store? (m : Memory) (a : Nat) (bs : List Byte) : Option Memory :=
  if rangeOk a bs.length then some (m.putList a bs) else none

/-! ### Registers (10_state.md) -/

/-- `V[x]` (R24). -/
def State.readV (s : State) (x : Nibble) : Byte := s.v[x.toNat]'x.isLt

/-- `V[x] <- b` (R24: no register is hard-wired). -/
def State.writeV (s : State) (x : Nibble) (b : Byte) : State := { s with v := s.v.set x.toNat b x.isLt }

/-- `V[k] <- bs[0]`, `V[k + 1] <- bs[1]`, …, ascending (R157). -/
def Regs.fill : Regs → Nat → List Byte → Regs
  | v, _, [] => v
  | v, k, b :: bs => Regs.fill (v.setIfInBounds k b) (k + 1) bs

/-- `I <- w` (R30). -/
def State.writeI (s : State) (w : Word) : State := { s with i := w }

/-- `PC <- w` (R28: any value may be held; the check is made at the next fetch, R102). -/
def State.writePc (s : State) (w : Word) : State := { s with pc := w }

/-- `PC <- (PC + 2) mod 65536`, the advance of R107. -/
def State.advance (s : State) : State := s.writePc (s.pc + 2#16)

/-- The skip of R107: `PC + 4` if the condition holds, else the advance. The skipped bytes are not looked at. -/
def State.skipIf (s : State) (c : Bool) : State := if c then s.writePc (s.pc + 4#16) else s.advance

/-- `DT <- b` (R32). -/
def State.writeDt (s : State) (b : Byte) : State := { s with dt := b }

/-- `ST <- b` (R32). -/
def State.writeSt (s : State) (b : Byte) : State := { s with st := b }

/-- Replace memory. -/
def State.writeMem (s : State) (m : Memory) : State := { s with mem := m }

/-- Replace all general registers. -/
def State.writeRegs (s : State) (v : Regs) : State := { s with v := v }

/-- One random byte has been drawn: the next draw is another free value (R128: "two independent draws"). -/
def State.countDraw (s : State) : State := { s with draws := s.draws + 1 }

/-! ### Call stack (R31) -/

/-- `STACK[SP] <- w; SP <- SP + 1`; none when `SP` = 16 (R31, R117). -/
def State.push? (s : State) (w : Word) : Option State :=
  if h : s.sp.val < 16 then
    some { s with stack := s.stack.set s.sp.val w h, sp := ⟨s.sp.val + 1, by omega⟩ }
  else none

/-- `SP <- SP - 1`, and the entry at the new `SP`; none when `SP` = 0 (R31, R115). The popped entry stays in `STACK`. -/
def State.pop? (s : State) : Option (Word × State) :=
  if h : 0 < s.sp.val then
    some (s.stack[s.sp.val - 1]'(by omega), { s with sp := ⟨s.sp.val - 1, by omega⟩ })
  else none

/-! ### Display (R33) and keys (R34) -/

/-- `DISP[y][x]`. -/
def Display.pixel (d : Display) (x y : Nat) : Bool := d.getLsbD (64 * y + x)

/-- `DISP[y][x] <- DISP[y][x] ^ 1`. -/
def Display.flip (d : Display) (x y : Nat) : Display := d ^^^ BitVec.twoPow 2048 (64 * y + x)

/-- Replace the display. -/
def State.writeDisp (s : State) (d : Display) : State := { s with disp := d }

/-- `KEYS[k]` = 1: key `k` is pressed. -/
def State.keyDown (s : State) (k : Nat) : Bool := s.keys.getLsbD k

/-- The smallest `k` in 0..15 with `KEYS[k]` = 1, if there is one (R148). -/
def State.lowestKey (s : State) : Option Nat := (List.range 16).find? (fun k => s.keyDown k)

/-! ### Mode: faults, waiting, pause, reset -/

/-- `raise <Fault>` (R177): `MODE <- Faulted`, `FAULT_CAUSE <- f`, and nothing else; `PC` keeps the address of the faulting
instruction (R176). Codes are those of R175. -/
def State.raise (s : State) (f : FaultCause) : State := { s with mode := .faulted, faultCause := f }

/-- The end of an instruction that has an execution check (R105): its effect if the check passed, else the fault. -/
def State.orRaise (s : State) (f : FaultCause) (effect : Option State) : State :=
  match effect with
  | some t => t
  | none => s.raise f

/-- Enter the key wait (R147): `WAITREG <- x`, `MODE <- AwaitingKey`. -/
def State.enterWait (s : State) (x : Nibble) : State := { s with waitReg := x, mode := .awaitingKey }

/-- `MODE <- Running`, at the end of a key wait (R148). -/
def State.resume (s : State) : State := { s with mode := .running }

/-- The pause toggle (R162): Running or AwaitingKey to Paused, Paused to Running, Faulted unchanged; `MODE` only. -/
def State.togglePause (s : State) : State :=
  match s.mode with
  | .running => { s with mode := .paused }
  | .awaitingKey => { s with mode := .paused }
  | .paused => { s with mode := .running }
  | .faulted => s

/-- `MEM` after reset (R200): zeroed, then the font from 0, then the image from 0x200. -/
def Params.memory (p : Params) : Memory := Memory.putList (Memory.putList [] 0 p.font.toList) 0x200 p.rom

/-- Reset, also called load (R200), as a function of the parameters: everything zero, the font at 0, the image at 0x200,
`PC` = 0x200, Running. The precondition on the image's length (at most 3584, R8) is `Params.Legal` of Safety.lean. -/
def State.load (p : Params) : State :=
  { State.reset with mem := p.memory, params := p }

/-- Reset of a running machine (R163, R200: it depends "not on the previous state"). The output ports keep the last frame's
values until step 5 of this one (R41), and the model's counters and placed inputs go on (R202: "The random draws are not
reset"). Log entry 7. -/
def State.reload (s : State) : State :=
  { State.load s.params with
    out := s.out, phase := s.phase, draws := s.draws, frameNo := s.frameNo, inputs := s.inputs }

/-! ### Numeric codes on the ports (R35, R175) -/

/-- Running = 0, AwaitingKey = 1, Faulted = 2, Paused = 3 (R35). -/
def Mode.code : Mode → BitVec 2
  | .running => 0
  | .awaitingKey => 1
  | .faulted => 2
  | .paused => 3

/-- The codes of R175. -/
def FaultCause.code : FaultCause → BitVec 3
  | .none => 0
  | .outOfBounds => 1
  | .invalidOpcode => 2
  | .stackOverflow => 3
  | .stackUnderflow => 4
  | .dataOutOfBounds => 5
  | .keyOutOfRange => 6

end Sys2Proof.Machine
end

