-- ==== Sys2Proof/Machine/Operands.lean ====
section
/-! DEFINITION. The operand forms of the instructions beyond a plain register or immediate: the key numbered by a
register (46_keys.md), the register range `V[0]`..`V[x]`, and memory at `I` (47_timer_index_mem.md). -/

namespace Sys2Proof.Machine

/-- `VF`, the register that is also the flag output (10_state.md R26). -/
abbrev vf : Nibble := 0xF#4

/-- The key number in `V[x]`; none when it is above 15 (R145). -/
def State.keyOperand (s : State) (x : Nibble) : Option Nat :=
  if (s.readV x).toNat > 15 then none else some (s.readV x).toNat

/-- `V[0]`, …, `V[x]`, in that order: `x + 1` bytes (R156). -/
def State.regsUpTo (s : State) (x : Nibble) : List Byte := s.v.toList.take (x.toNat + 1)

/-- The `n` bytes at `I`, if they are inside `MEM` (R66). -/
def State.loadAtI (s : State) (n : Nat) : Option (List Byte) := s.mem.load? s.i.toNat n

/-- Store bytes at `I`, if they fit inside `MEM` (R66). -/
def State.storeAtI (s : State) (bs : List Byte) : Option State := (s.mem.store? s.i.toNat bs).map s.writeMem

/-- `I <- (I + x + 1) mod 65536` (R156, R157). -/
def State.advanceI (s : State) (x : Nibble) : State := s.writeI (BitVec.ofNat 16 (s.i.toNat + x.toNat + 1))

/-- The three decimal digits of a byte: hundreds, tens, ones (R155). -/
def decimalDigits (b : Byte) : List Byte :=
  [BitVec.ofNat 8 (b.toNat / 100), BitVec.ofNat 8 (b.toNat / 10 % 10), BitVec.ofNat 8 (b.toNat % 10)]

end Sys2Proof.Machine
end

