-- ==== Sys2Proof/Machine/Flags.lean ====
section
/-! DEFINITION. The values the flag-writing instructions give `VF` (10_state.md R26) and the order of the two writes
(R27). -/

namespace Sys2Proof.Machine

/-- A flag is the byte 1 or 0. -/
def flagByte (c : Bool) : Byte := if c then 1#8 else 0#8

/-- Carry of `a + b` (R134): 1 if the sum is above 255. -/
def carryFlag (a b : Byte) : Byte := flagByte (decide (a.toNat + b.toNat > 255))

/-- Not-borrow of `a - b` (R135, R137): 1 if `a >= b`. -/
def notBorrowFlag (a b : Byte) : Byte := flagByte (decide (a.toNat ≥ b.toNat))

/-- The bit a right shift moves out, `a[0]` (R136). -/
def shiftedOutRight (a : Byte) : Byte := flagByte (a.getLsbD 0)

/-- The bit a left shift moves out, `a[7]` (R138). -/
def shiftedOutLeft (a : Byte) : Byte := flagByte (a.getLsbD 7)

/-- Write the result to `V[x]`, then the flag to `VF`: the flag last, so with `x` = 0xF the flag is what stays (R27). -/
def State.writeResultAndFlag (s : State) (x : Nibble) (result flag : Byte) : State :=
  (s.writeV x result).writeV vf flag

end Sys2Proof.Machine
end

