-- ==== Sys2Proof/Machine/Alu.lean ====
section
/-! DEFINITION. Register-to-register arithmetic and logic: `8xy0` to `8xy7`, `8xyE` (44_alu.md). Operands are read from
the state before the instruction (40_cycle.md R106). -/

namespace Sys2Proof.Machine

/-- `8xy0` (R130): `V[x] <- V[y]`. -/
def execLdReg (x y : Nibble) (s : State) : Host.Outcome State Fault Refusal :=
  .next (s.writeV x (s.readV y)).advance

/-- `8xy1` (R131): `V[x] <- V[x] | V[y]`; `VF` is not a flag here. -/
def execOrReg (x y : Nibble) (s : State) : Host.Outcome State Fault Refusal :=
  .next (s.writeV x (s.readV x ||| s.readV y)).advance

/-- `8xy2` (R132): `V[x] <- V[x] & V[y]`; `VF` is not a flag here. -/
def execAndReg (x y : Nibble) (s : State) : Host.Outcome State Fault Refusal :=
  .next (s.writeV x (s.readV x &&& s.readV y)).advance

/-- `8xy3` (R133): `V[x] <- V[x] ^ V[y]`; `VF` is not a flag here. -/
def execXorReg (x y : Nibble) (s : State) : Host.Outcome State Fault Refusal :=
  .next (s.writeV x (s.readV x ^^^ s.readV y)).advance

/-- `8xy4` (R134): sum modulo 256, carry to `VF`. -/
def execAddReg (x y : Nibble) (s : State) : Host.Outcome State Fault Refusal :=
  .next (s.writeResultAndFlag x (s.readV x + s.readV y) (carryFlag (s.readV x) (s.readV y))).advance

/-- `8xy5` (R135): `V[x] - V[y]` modulo 256, not-borrow to `VF`. -/
def execSubReg (x y : Nibble) (s : State) : Host.Outcome State Fault Refusal :=
  .next (s.writeResultAndFlag x (s.readV x - s.readV y) (notBorrowFlag (s.readV x) (s.readV y))).advance

/-- `8xy6` (R136): `V[x] >> 1`, bit 0 to `VF`; `y` is ignored. -/
def execShr (x _y : Nibble) (s : State) : Host.Outcome State Fault Refusal :=
  .next (s.writeResultAndFlag x (s.readV x >>> 1) (shiftedOutRight (s.readV x))).advance

/-- `8xy7` (R137): `V[y] - V[x]` modulo 256, not-borrow to `VF`. -/
def execSubnReg (x y : Nibble) (s : State) : Host.Outcome State Fault Refusal :=
  .next (s.writeResultAndFlag x (s.readV y - s.readV x) (notBorrowFlag (s.readV y) (s.readV x))).advance

/-- `8xyE` (R138): `V[x] << 1` modulo 256, bit 7 to `VF`; `y` is ignored. -/
def execShl (x _y : Nibble) (s : State) : Host.Outcome State Fault Refusal :=
  .next (s.writeResultAndFlag x (s.readV x <<< 1) (shiftedOutLeft (s.readV x))).advance

end Sys2Proof.Machine
end

