-- ==== Sys2Proof/Machine/Draw.lean ====
section
/-! DEFINITION. The display: `00E0`, `Dxyn` (45_display.md). The loops are those of R141; the pair carried through them is
the display so far and the collision so far. -/

namespace Sys2Proof.Machine

/-- Column `c` of a sprite row `b` (R141, R142: bit 7 is the leftmost pixel): a set bit flips the pixel at column
`(x0 + c) mod 64`, and collides if that pixel was set. -/
def drawPixel (x0 py : Nat) (b : Byte) (acc : Display × Bool) (c : Nat) : Display × Bool :=
  if b.getLsbD (7 - c) then
    (acc.1.flip ((x0 + c) % 64) py, acc.2 || acc.1.pixel ((x0 + c) % 64) py)
  else acc

/-- One sprite row at display row `py`, columns left to right (R141). -/
def drawRow (x0 py : Nat) (b : Byte) (acc : Display × Bool) : Display × Bool :=
  (List.range 8).foldl (drawPixel x0 py b) acc

/-- The sprite rows from row `r` on, top to bottom; row `r` lands on display row `(y0 + r) mod 32` (R141, R142). -/
def drawRows (x0 y0 : Nat) : Nat → List Byte → Display × Bool → Display × Bool
  | _, [], acc => acc
  | r, b :: bs, acc => drawRows x0 y0 (r + 1) bs (drawRow x0 ((y0 + r) % 32) b acc)

/-- `00E0` (R140): every pixel 0; `VF` is not written. -/
def execCls (s : State) : Host.Outcome State Fault Refusal :=
  .next (s.writeDisp 0).advance

/-- The effect of `Dxyn` once the sprite rows are read (R141): draw, then `VF <- collision`, written last. -/
def State.drawSprite (s : State) (x y : Nibble) (rows : List Byte) : State :=
  let drawn := drawRows ((s.readV x).toNat % 64) ((s.readV y).toNat % 32) 0 rows (s.disp, false)
  ((s.writeDisp drawn.1).writeV vf (flagByte drawn.2)).advance

/-- `Dxyn` (R141): DataOutOfBounds if the `n` rows at `I` are not inside `MEM`; else the draw. -/
def execDrw (x y n : Nibble) (s : State) : Host.Outcome State Fault Refusal :=
  .next (s.orRaise .dataOutOfBounds ((s.loadAtI n.toNat).map fun rows => s.drawSprite x y rows))

end Sys2Proof.Machine
end

