-- ==== Sys2Proof/Machine/Flow.lean ====
section
/-! DEFINITION. Control flow: `00EE`, `1nnn`, `2nnn`, `Bnnn` (41_flow.md). -/

namespace Sys2Proof.Machine

/-- `00EE` (R115): StackUnderflow at `SP` = 0; else pop, and `PC` is the popped address plus 2. -/
def execRet (s : State) : Host.Outcome State Fault Refusal :=
  .next (s.orRaise .stackUnderflow (s.pop?.map fun p => p.2.writePc (p.1 + 2#16)))

/-- `1nnn` (R116): `PC <- nnn`, no increment, not checked now. -/
def execJp (nnn : Addr) (s : State) : Host.Outcome State Fault Refusal :=
  .next (s.writePc (nnn.setWidth 16))

/-- `2nnn` (R117): StackOverflow at `SP` = 16; else push the address of this instruction and jump. -/
def execCall (nnn : Addr) (s : State) : Host.Outcome State Fault Refusal :=
  .next (s.orRaise .stackOverflow ((s.push? s.pc).map fun t => t.writePc (nnn.setWidth 16)))

/-- `Bnnn` (R118): `PC <- nnn + V[0]`, not reduced to 12 bits. -/
def execJpV0 (nnn : Addr) (s : State) : Host.Outcome State Fault Refusal :=
  .next (s.writePc (nnn.setWidth 16 + (s.readV 0#4).setWidth 16))

end Sys2Proof.Machine
end

