-- ==== Sys2Proof/Machine/Keys.lean ====
section
/-! DEFINITION. Keys: `Ex9E`, `ExA1`, `Fx0A`, and the scan that runs instead of an instruction while AwaitingKey
(46_keys.md). -/

namespace Sys2Proof.Machine

/-- `Ex9E` (R145): KeyOutOfRange if `V[x]` > 15; else skip if that key is pressed. -/
def execSkp (x : Nibble) (s : State) : Host.Outcome State Fault Refusal :=
  .next (s.orRaise .keyOutOfRange ((s.keyOperand x).map fun k => s.skipIf (s.keyDown k)))

/-- `ExA1` (R146): KeyOutOfRange if `V[x]` > 15; else skip if that key is not pressed. -/
def execSknp (x : Nibble) (s : State) : Host.Outcome State Fault Refusal :=
  .next (s.orRaise .keyOutOfRange ((s.keyOperand x).map fun k => s.skipIf (!s.keyDown k)))

/-- `Fx0A` (R147): enter the wait; `PC`, `V[x]` unchanged, keys not examined. -/
def execLdVxK (x : Nibble) (s : State) : Host.Outcome State Fault Refusal :=
  .next (s.enterWait x)

/-- `key_wait_scan` (R148): the lowest pressed key completes the wait; with no key pressed nothing changes. -/
def State.keyWaitScan (s : State) : State :=
  match s.lowestKey with
  | some k => ((s.writeV s.waitReg (BitVec.ofNat 8 k)).advance).resume
  | none => s

end Sys2Proof.Machine
end

