-- ==== Sys2Proof/Machine/Load.lean ====
section
/-! DEFINITION. Immediate load and add, index load, random: `6xkk`, `7xkk`, `Annn`, `Cxkk` (43_load_add_rand.md). -/

namespace Sys2Proof.Machine

/-- `6xkk` (R125): `V[x] <- kk`. -/
def execLdByte (x : Nibble) (kk : Byte) (s : State) : Host.Outcome State Fault Refusal :=
  .next (s.writeV x kk).advance

/-- `7xkk` (R126): `V[x] <- (V[x] + kk) mod 256`, no flag. -/
def execAddByte (x : Nibble) (kk : Byte) (s : State) : Host.Outcome State Fault Refusal :=
  .next (s.writeV x (s.readV x + kk)).advance

/-- `Annn` (R127): `I <- zext_16(nnn)`. -/
def execLdI (nnn : Addr) (s : State) : Host.Outcome State Fault Refusal :=
  .next (s.writeI (nnn.setWidth 16)).advance

/-- `Cxkk` with the random byte given (R128): `V[x] <- rnd & kk`. -/
def State.randomInto (s : State) (x : Nibble) (kk rnd : Byte) : State := (s.writeV x (rnd &&& kk)).advance

/-- `Cxkk` (R128): the byte is a free value, a new one for each draw (log entry 2). -/
def execRnd (x : Nibble) (kk : Byte) (s : State) : Host.Outcome State Fault Refusal :=
  .next (s.randomInto x kk (Config.rnd s.draws)).countDraw

end Sys2Proof.Machine
end

