-- ==== Sys2Proof/Machine/Timer.lean ====
section
/-! DEFINITION. Timers and index: `Fx07`, `Fx15`, `Fx18`, `Fx1E`, `Fx29` (47_timer_index_mem.md). -/

namespace Sys2Proof.Machine

/-- `Fx07` (R150): `V[x] <- DT`. -/
def execLdVxDt (x : Nibble) (s : State) : Host.Outcome State Fault Refusal :=
  .next (s.writeV x s.dt).advance

/-- `Fx15` (R151): `DT <- V[x]`. -/
def execLdDtVx (x : Nibble) (s : State) : Host.Outcome State Fault Refusal :=
  .next (s.writeDt (s.readV x)).advance

/-- `Fx18` (R152): `ST <- V[x]`. -/
def execLdStVx (x : Nibble) (s : State) : Host.Outcome State Fault Refusal :=
  .next (s.writeSt (s.readV x)).advance

/-- `Fx1E` (R153): `I <- (I + zext_16(V[x])) mod 65536`, no flag. -/
def execAddIVx (x : Nibble) (s : State) : Host.Outcome State Fault Refusal :=
  .next (s.writeI (s.i + (s.readV x).setWidth 16)).advance

/-- `Fx29` (R154): `I <- (V[x] mod 16) * 5`. -/
def execLdFVx (x : Nibble) (s : State) : Host.Outcome State Fault Refusal :=
  .next (s.writeI (BitVec.ofNat 16 ((s.readV x).toNat % 16 * 5))).advance

end Sys2Proof.Machine
end

