-- ==== Sys2Proof/Machine/Transfer.lean ====
section
/-! DEFINITION. Memory transfer: `Fx33`, `Fx55`, `Fx65` (47_timer_index_mem.md). The whole range is checked before
anything is read or written (20_memory.md R66). -/

namespace Sys2Proof.Machine

/-- `Fx33` (R155): the decimal digits of `V[x]` to `MEM[I..I+2]`; `I` unchanged. -/
def execLdBVx (x : Nibble) (s : State) : Host.Outcome State Fault Refusal :=
  .next (s.orRaise .dataOutOfBounds ((s.storeAtI (decimalDigits (s.readV x))).map fun t => t.advance))

/-- `Fx55` (R156): `V[0..x]` to `MEM[I..I+x]`, then `I + x + 1`. -/
def execLdMemVx (x : Nibble) (s : State) : Host.Outcome State Fault Refusal :=
  .next (s.orRaise .dataOutOfBounds ((s.storeAtI (s.regsUpTo x)).map fun t => (t.advanceI x).advance))

/-- `Fx65` (R157): `MEM[I..I+x]` to `V[0..x]`, then `I + x + 1`. -/
def execLdVxMem (x : Nibble) (s : State) : Host.Outcome State Fault Refusal :=
  .next (s.orRaise .dataOutOfBounds
    ((s.loadAtI (x.toNat + 1)).map fun bs => ((s.writeRegs (s.v.fill 0 bs)).advanceI x).advance))

end Sys2Proof.Machine
end

