-- ==== Sys2Proof/Machine/Cycle.lean ====
section
/-! DEFINITION. The cycle, one call of `execute_one` (40_cycle.md R100): mode gate, fetch, decode, execute. -/

namespace Sys2Proof.Machine

/-- The two bytes at `PC`, none when `PC > 0xFFE` (R102, R103): both are read before any effect, and nothing is
prefetched. -/
def State.fetch (s : State) : Option (List Byte) := s.mem.load? s.pc.toNat 2

/-- A Running cycle: the checks in the order of R105. -/
def runningCycle (s : State) : Host.Outcome State Fault Refusal :=
  match s.fetch with
  | none => .next (s.raise .outOfBounds)
  | some bytes =>
    match decode bytes with
    | .ok i => exec i s
    | .invalidOpcode _ => .next (s.raise .invalidOpcode)
    | .truncated => .next (s.raise .outOfBounds)

/-- The cycle (R100). Faulted, Paused: the identity (R101). AwaitingKey: the key scan, no fetch (R148). -/
def cycle (s : State) : Host.Outcome State Fault Refusal :=
  match s.mode with
  | .faulted => .next s
  | .paused => .next s
  | .awaitingKey => .next s.keyWaitScan
  | .running => runningCycle s

end Sys2Proof.Machine
end

