-- ==== Sys2Proof/Machine/Frame.lean ====
section
/-! DEFINITION. The frame (48_frame.md R160): step 1 (inputs and controls), steps 2 and 3 (cycles), step 4 (timer decay),
step 5 (outputs). Step 6, pacing, changes no state (R167). `frame` is the frame as the one atomic event of R160;
Step.lean runs the same event in steps. -/

namespace Sys2Proof.Machine

/-- The inputs of the next frame: the oldest placed one, else free values (R161 to R163, log entry 3). -/
def State.nextInput (s : State) : FrameInput :=
  match s.inputs with
  | inp :: _ => inp
  | [] => { keysIn := Config.keysIn s.frameNo, pauseToggle := Config.pauseToggle s.frameNo,
            resetReq := Config.resetReq s.frameNo }

/-- The inputs of one frame have been sampled. -/
def State.takeInput (s : State) : State := { s with inputs := s.inputs.tail, frameNo := s.frameNo + 1 }

/-- The control requests of step 1: reset first, discarding a toggle, else the toggle (R162, R163). -/
def State.control (s : State) (inp : FrameInput) : State :=
  if inp.resetReq then s.reload else if inp.pauseToggle then s.togglePause else s

/-- Step 1: controls, then all sixteen keys are overwritten (R161), and the frame's cycles are due. -/
def State.beginFrame (s : State) (inp : FrameInput) : State :=
  { s.control inp with keys := inp.keysIn, phase := .cycles s.params.cyclesPerFrame }

/-- Whether the frame goes on running cycles in this mode: not when Faulted or Paused (R164). -/
def Mode.runsCycles : Mode → Bool
  | .running => true
  | .awaitingKey => true
  | .faulted => false
  | .paused => false

/-- One timer after the decay of step 4 (R165): one less, floored at 0. -/
def decay (t : Byte) : Byte := if t = 0#8 then 0#8 else t - 1#8

/-- Step 4 (R165): both timers decay, in every mode. -/
def State.decayTimers (s : State) : State := { s with dt := decay s.dt, st := decay s.st }

/-- What step 5 presents (R41, R166): functions of the state after the decay. -/
def State.outputs (s : State) : Outputs :=
  { disp := s.disp, mode := s.mode.code, faultCause := s.faultCause.code, soundTimer := s.st }

/-- Step 5 (R166): the outputs are presented and stay until the next frame's. -/
def State.present (s : State) : State := { s with out := s.outputs }

/-- Steps 4 and 5; the next step begins the next frame (R168). -/
def State.endFrame (s : State) : State := { s.decayTimers.present with phase := .frameStart }

/-- Steps 2 and 3 (R164): at most `k` cycles, stopping when the mode runs none. -/
def runCycles : Nat → State → Host.Outcome State Fault Refusal
  | 0, s => .next s
  | k + 1, s =>
    if s.mode.runsCycles then
      match cycle { s with phase := .cycles k } with
      | .next t => runCycles k t
      | .fault f => .fault f
      | .refused r => .refused r
    else .next s

/-- The frame event of R160 on the inputs `inp`. -/
def frame (inp : FrameInput) (s : State) : Host.Outcome State Fault Refusal :=
  match runCycles s.params.cyclesPerFrame (s.beginFrame inp) with
  | .next t => .next t.endFrame
  | .fault f => .fault f
  | .refused r => .refused r

/-- `n` frames one after the other, each on the next input of a sequence: a run of the block (R168). -/
def runFrames (inputs : Nat → FrameInput) : Nat → State → Host.Outcome State Fault Refusal
  | 0, s => .next s
  | n + 1, s =>
    match frame (inputs 0) s with
    | .next t => runFrames (fun k => inputs (k + 1)) n t
    | .fault f => .fault f
    | .refused r => .refused r

/-- A state whose very next step fetches: `PC` fetchable, Running, in the cycles of a frame with a call left. Nothing
changes where that holds already. -/
def State.readyToFetch (s : State) : State :=
  { s with
    pc := if s.pc.toNat ≤ 0xFFE then s.pc else Config.progBase
    mode := .running
    faultCause := if s.mode = .faulted then .none else s.faultCause
    phase := match s.phase with
      | .cycles (k + 1) => .cycles (k + 1)
      | .cycles 0 => .cycles 1
      | .frameStart => .cycles 1 }

/-- One step: step 1 of a frame; or one cycle of step 3; or steps 4 and 5 when no cycle is left to run (log entry 1). -/
def stepPhase (s : State) : Host.Outcome State Fault Refusal :=
  match s.phase with
  | .frameStart => .next (s.takeInput.beginFrame s.nextInput)
  | .cycles 0 => .next s.endFrame
  | .cycles (k + 1) => if s.mode.runsCycles then cycle { s with phase := .cycles k } else .next s.endFrame

/-- Store an opcode at `PC` (R62) in a state made ready to fetch it. -/
def State.placeOpcode (s : State) (op : Opcode) : State :=
  let r := s.readyToFetch
  r.writeMem (r.mem.putList r.pc.toNat (opcodeBytes op))

end Sys2Proof.Machine
end

