-- ==== Sys2Proof/Machine/Step.lean ====
section
/-! DEFINITION. One step of the block, and the placing of a word where the next step fetches it. The work is in
Frame.lean and Cycle.lean. -/

namespace Sys2Proof.Machine

/-- One step of the run of 48_frame.md R168 (log entry 1). -/
def step (s : State) : Host.Outcome State Fault Refusal := stepPhase s

/-- `s` with a table word of `nbits` bits stored where `step` fetches its next instruction (log entry 5). -/
def State.withFetchWord (s : State) (nbits w : Nat) : State := s.placeOpcode (tableOpcode nbits w)

end Sys2Proof.Machine
end

