-- ==== Sys2Proof/Safety.lean ====
section
/-! DEFINITION. What counts as a legal machine, a legal state, a safe state, and a program that has finished, in the terms
the statements use (00_scope.md R8, 10_state.md R45, 70_reset_and_hazards.md R205). -/

namespace Sys2Proof.Machine

/-- The precondition on the program image: at most 3584 bytes, so that it fits from 0x200 (R8, R61). -/
def Params.Legal (p : Params) : Prop := p.rom.length ≤ 3584

/-- The bounds of 10_state.md R45 that the types do not already give. (`SP` in 0..16, bytes in 0..255, `I` in 0..65535 and
`WAITREG` in 0..15 hold of every state by the fields' types.) -/
structure State.InBounds (s : State) : Prop where
  pc : s.pc.toNat ≤ 0x10FE
  faulted : s.mode = .faulted ↔ s.faultCause ≠ .none
  stack : ∀ (k : Nat) (h : k < 16), (s.stack[k]).toNat ≤ 0xFFE

/-- The model's invariant: R45, memory in canonical form, legal parameters, and what makes R45 inductive (while a key wait
is on, `PC` addresses the `Fx0A` that was fetched). -/
structure State.Inv (s : State) : Prop where
  inBounds : s.InBounds
  memory : s.mem.wf = true
  waitPc : s.mode = .awaitingKey → s.pc.toNat ≤ 0xFFE
  params : s.params.Legal
  phase : ∀ k, s.phase = .cycles k → k ≤ s.params.cyclesPerFrame

/-- A state that has not faulted. -/
def State.Safe (s : State) : Prop := s.mode ≠ .faulted

/-- The next step of `s` runs a cycle, and `k` more calls are left in the frame after it (R164). -/
def State.CycleDue (s : State) (k : Nat) : Prop := s.phase = .cycles (k + 1) ∧ s.mode.runsCycles = true

/-- The way a program ends that R205 lists first: a self-jump at its own address. -/
def State.AtSelfJump (s : State) : Prop :=
  s.mode = .running ∧ ∃ nnn : Addr, s.pc = nnn.setWidth 16 ∧ s.fetch = some (encode (.jp nnn))

/-- The second way: a key wait in which no key is ever pressed, in this frame or in any frame of those to come, whose
inputs are `inputs`. -/
def State.EndlessKeyWait (inputs : Nat → FrameInput) (s : State) : Prop :=
  s.mode = .awaitingKey ∧ s.keys = 0 ∧ ∀ k, (inputs k).keysIn = 0

/-- A program has finished, on the inputs of the frames to come (R205): a self-jump, an endless key wait, or a fault. -/
def State.Finished (inputs : Nat → FrameInput) (s : State) : Prop :=
  s.AtSelfJump ∨ s.EndlessKeyWait inputs ∨ s.mode = .faulted

/-- Nothing from outside interferes: no reset request and no pause toggle in any frame to come. -/
def NoControls (inputs : Nat → FrameInput) : Prop := ∀ k, (inputs k).resetReq = false ∧ (inputs k).pauseToggle = false

end Sys2Proof.Machine
end

