-- ==== Sys2Proof/Certificates/Slice0/Obligations.lean ====
section
/-! DEFINITION. The statements for the provers. First the vocabulary they share: what an instruction leaves unchanged, how
an opcode stands for an instruction, the tables of R107 and R175. Where a clause rests on a decision of the spec
(92_eei_decisions.md D<n>) or on a log entry, the docstring says so. -/

namespace Sys2Proof

/-- The write rows of R25: the registers an instruction may write, `VF` as a flag among them. -/
def Instr.WritesV (i : Instr) (r : Nibble) : Prop :=
  match i with
  | .ldByte x _ => r = x
  | .addByte x _ => r = x
  | .ldReg x _ => r = x
  | .orReg x _ => r = x
  | .andReg x _ => r = x
  | .xorReg x _ => r = x
  | .rnd x _ => r = x
  | .ldVxDt x => r = x
  | .addReg x _ => r = x ∨ r = Machine.vf
  | .subReg x _ => r = x ∨ r = Machine.vf
  | .shr x _ => r = x ∨ r = Machine.vf
  | .subnReg x _ => r = x ∨ r = Machine.vf
  | .shl x _ => r = x ∨ r = Machine.vf
  | .drw _ _ _ => r = Machine.vf
  | .ldVxMem x => r.toNat ≤ x.toNat
  | _ => False

end Sys2Proof

namespace Sys2Proof.Machine

/-- A piece of state other than the general registers and `PC`. -/
inductive Part where
  | index | stack | stackPointer | delayTimer | soundTimer | display | memory | keys | mode | waitReg | faultCause
  | outputs | phase | draws | frames | parameters

/-- The piece is as before; memory is compared byte by byte. -/
def Part.Same (s t : State) : Part → Prop
  | .index => t.i = s.i
  | .stack => t.stack = s.stack
  | .stackPointer => t.sp = s.sp
  | .delayTimer => t.dt = s.dt
  | .soundTimer => t.st = s.st
  | .display => t.disp = s.disp
  | .memory => ∀ a, t.mem.byte a = s.mem.byte a
  | .keys => t.keys = s.keys
  | .mode => t.mode = s.mode
  | .waitReg => t.waitReg = s.waitReg
  | .faultCause => t.faultCause = s.faultCause
  | .outputs => t.out = s.out
  | .phase => t.phase = s.phase
  | .draws => t.draws = s.draws
  | .frames => t.frameNo = s.frameNo ∧ t.inputs = s.inputs
  | .parameters => t.params = s.params

/-- From `s` to `t` only the registers in `regs`, the parts listed and `PC` may have changed. -/
def State.OnlyWrites (s t : State) (regs : Nibble → Prop) (parts : List Part) : Prop :=
  (∀ r, ¬regs r → t.readV r = s.readV r) ∧ ∀ p, p ∉ parts → p.Same s t

/-- No general register. -/
def noRegs : Nibble → Prop := fun _ => False

/-- `PC <- (PC + 2) mod 65536`. -/
def State.Advances (s t : State) : Prop := t.pc.toNat = (s.pc.toNat + 2) % 65536

/-- `PC <- (PC + 4) mod 65536` if the condition holds, else the advance. -/
def State.SkipsIf (s t : State) (c : Prop) : Prop :=
  (c → t.pc.toNat = (s.pc.toNat + 4) % 65536) ∧ (¬c → t.pc.toNat = (s.pc.toNat + 2) % 65536)

/-- Every opcode of the row `match`, `mask` of R86 decodes to the instruction with the fields of that opcode. -/
def EncodedBy (pattern mask : Opcode) (i : Opcode → Instr) : Prop :=
  ∀ op, op &&& mask = pattern → decodeOpcode op = .ok (i op)

/-- The pixel `(px, py)` is the target of a set bit of the sprite (R141): row `r`, column `c`, bit 7 leftmost, both
coordinates wrapped independently. -/
def State.SpriteCovers (s : State) (x y n : Nibble) (px py : Nat) : Prop :=
  ∃ r c, r < n.toNat ∧ c < 8 ∧ (s.mem.byte (s.i.toNat + r)).getLsbD (7 - c) = true ∧
    px = ((s.readV x).toNat % 64 + c) % 64 ∧ py = ((s.readV y).toNat % 32 + r) % 32

/-- The table of R107: the new `PC` of an instruction that does not fault. -/
def pcAfter (s : State) : Instr → Nat
  | .jp nnn => nnn.toNat
  | .call nnn => nnn.toNat
  | .jpV0 nnn => (nnn.toNat + (s.readV 0).toNat) % 65536
  | .ret => ((s.stack.toList.getD (s.sp.val - 1) 0).toNat + 2) % 65536
  | .ldVxK _ => s.pc.toNat
  | .seByte x kk => if s.readV x = kk then (s.pc.toNat + 4) % 65536 else (s.pc.toNat + 2) % 65536
  | .sneByte x kk => if s.readV x ≠ kk then (s.pc.toNat + 4) % 65536 else (s.pc.toNat + 2) % 65536
  | .seReg x y => if s.readV x = s.readV y then (s.pc.toNat + 4) % 65536 else (s.pc.toNat + 2) % 65536
  | .sneReg x y => if s.readV x ≠ s.readV y then (s.pc.toNat + 4) % 65536 else (s.pc.toNat + 2) % 65536
  | .skp x => if s.keyDown (s.readV x).toNat = true then (s.pc.toNat + 4) % 65536 else (s.pc.toNat + 2) % 65536
  | .sknp x => if s.keyDown (s.readV x).toNat = false then (s.pc.toNat + 4) % 65536 else (s.pc.toNat + 2) % 65536
  | _ => (s.pc.toNat + 2) % 65536

/-- The table of R175 and R190: the execution fault an instruction raises in a state, if any. -/
def faultOf (s : State) : Instr → Option FaultCause
  | .ret => if s.sp.val = 0 then some .stackUnderflow else none
  | .call _ => if s.sp.val = 16 then some .stackOverflow else none
  | .drw _ _ n => if 0 < n.toNat ∧ s.i.toNat + n.toNat - 1 > 0xFFF then some .dataOutOfBounds else none
  | .ldBVx _ => if s.i.toNat + 2 > 0xFFF then some .dataOutOfBounds else none
  | .ldMemVx x => if s.i.toNat + x.toNat > 0xFFF then some .dataOutOfBounds else none
  | .ldVxMem x => if s.i.toNat + x.toNat > 0xFFF then some .dataOutOfBounds else none
  | .skp x => if (s.readV x).toNat > 15 then some .keyOutOfRange else none
  | .sknp x => if (s.readV x).toNat > 15 then some .keyOutOfRange else none
  | _ => none

/-- The hundreds, tens and ones of a byte (R155). -/
def digit (b : Byte) : Nat → Byte
  | 0 => BitVec.ofNat 8 (b.toNat / 100)
  | 1 => BitVec.ofNat 8 (b.toNat / 10 % 10)
  | _ => BitVec.ofNat 8 (b.toNat % 10)

/-- The byte at `a` after `n` bytes have been stored from `I` on. -/
def State.byteAfterStore (s : State) (n : Nat) (stored : Nat → Byte) (a : Nat) : Byte :=
  if s.i.toNat ≤ a ∧ a < s.i.toNat + n then stored (a - s.i.toNat) else s.mem.byte a

/-- The illegal opcodes, family by family (the table of R88). -/
def IllegalOpcode (op : Opcode) : Prop :=
  (fieldF op = 0x0 ∧ op ≠ 0x00E0 ∧ op ≠ 0x00EE) ∨
  (fieldF op = 0x5 ∧ fieldN op ≠ 0) ∨
  (fieldF op = 0x8 ∧ (fieldN op = 0x8 ∨ fieldN op = 0x9 ∨ fieldN op = 0xA ∨ fieldN op = 0xB ∨ fieldN op = 0xC ∨
    fieldN op = 0xD ∨ fieldN op = 0xF)) ∨
  (fieldF op = 0x9 ∧ fieldN op ≠ 0) ∨
  (fieldF op = 0xE ∧ fieldKK op ≠ 0x9E ∧ fieldKK op ≠ 0xA1) ∨
  (fieldF op = 0xF ∧ fieldKK op ≠ 0x07 ∧ fieldKK op ≠ 0x0A ∧ fieldKK op ≠ 0x15 ∧ fieldKK op ≠ 0x18 ∧ fieldKK op ≠ 0x1E ∧
    fieldKK op ≠ 0x29 ∧ fieldKK op ≠ 0x33 ∧ fieldKK op ≠ 0x55 ∧ fieldKK op ≠ 0x65)

/-- The machine stands at the end of a frame's cycles: none is left, or the mode runs none (R164). -/
def State.AtFrameEnd (s : State) : Prop :=
  s.phase = .cycles 0 ∨ ∃ k, s.phase = .cycles (k + 1) ∧ (s.mode = .faulted ∨ s.mode = .paused)

/-- The opcode whose high byte is `MEM[PC]` and whose low byte is `MEM[PC + 1]` (R103). -/
def State.OpcodeAtPc (s : State) (op : Opcode) : Prop :=
  op.toNat = (s.mem.byte s.pc.toNat).toNat * 256 + (s.mem.byte (s.pc.toNat + 1)).toNat

/-- The right-hand sides of R92: register fields and immediates shifted to their places. -/
def atX (x : Nibble) : Opcode := x.setWidth 16 <<< 8
def atY (y : Nibble) : Opcode := y.setWidth 16 <<< 4

end Sys2Proof.Machine

open Sys2Proof Sys2Proof.Machine

/-! ### Encoding -/

/-- Words written out from the patterns of R86 decode to the instruction the pattern names. -/
def Obligations.SampleWordsDecodeAsThePatternsSay : Prop :=
  decodeOpcode 0b0000000011100000#16 = .ok .cls ∧
  decodeOpcode 0b0001001000000110#16 = .ok (.jp 0b001000000110#12) ∧
  decodeOpcode 0b0011000100000101#16 = .ok (.seByte 0b0001#4 0b00000101#8) ∧
  decodeOpcode 0b0110000000000101#16 = .ok (.ldByte 0b0000#4 0b00000101#8) ∧
  decodeOpcode 0b1000000000010100#16 = .ok (.addReg 0b0000#4 0b0001#4) ∧
  decodeOpcode 0b1101000000010101#16 = .ok (.drw 0b0000#4 0b0001#4 0b0101#4) ∧
  decodeOpcode 0b1110001010011110#16 = .ok (.skp 0b0010#4) ∧
  decodeOpcode 0b1111001001010101#16 = .ok (.ldMemVx 0b0010#4)

/-- Every row of R86 decodes, with the fields of R81 as operands: all 34 rows. -/
def Obligations.EveryTableRowDecodesWithItsFields : Prop :=
  EncodedBy 0x00E0 0xFFFF (fun _ => .cls) ∧ EncodedBy 0x00EE 0xFFFF (fun _ => .ret) ∧
  EncodedBy 0x1000 0xF000 (fun op => .jp (fieldNNN op)) ∧ EncodedBy 0x2000 0xF000 (fun op => .call (fieldNNN op)) ∧
  EncodedBy 0x3000 0xF000 (fun op => .seByte (fieldX op) (fieldKK op)) ∧
  EncodedBy 0x4000 0xF000 (fun op => .sneByte (fieldX op) (fieldKK op)) ∧
  EncodedBy 0x5000 0xF00F (fun op => .seReg (fieldX op) (fieldY op)) ∧
  EncodedBy 0x6000 0xF000 (fun op => .ldByte (fieldX op) (fieldKK op)) ∧
  EncodedBy 0x7000 0xF000 (fun op => .addByte (fieldX op) (fieldKK op)) ∧
  EncodedBy 0x8000 0xF00F (fun op => .ldReg (fieldX op) (fieldY op)) ∧
  EncodedBy 0x8001 0xF00F (fun op => .orReg (fieldX op) (fieldY op)) ∧
  EncodedBy 0x8002 0xF00F (fun op => .andReg (fieldX op) (fieldY op)) ∧
  EncodedBy 0x8003 0xF00F (fun op => .xorReg (fieldX op) (fieldY op)) ∧
  EncodedBy 0x8004 0xF00F (fun op => .addReg (fieldX op) (fieldY op)) ∧
  EncodedBy 0x8005 0xF00F (fun op => .subReg (fieldX op) (fieldY op)) ∧
  EncodedBy 0x8006 0xF00F (fun op => .shr (fieldX op) (fieldY op)) ∧
  EncodedBy 0x8007 0xF00F (fun op => .subnReg (fieldX op) (fieldY op)) ∧
  EncodedBy 0x800E 0xF00F (fun op => .shl (fieldX op) (fieldY op)) ∧
  EncodedBy 0x9000 0xF00F (fun op => .sneReg (fieldX op) (fieldY op)) ∧
  EncodedBy 0xA000 0xF000 (fun op => .ldI (fieldNNN op)) ∧ EncodedBy 0xB000 0xF000 (fun op => .jpV0 (fieldNNN op)) ∧
  EncodedBy 0xC000 0xF000 (fun op => .rnd (fieldX op) (fieldKK op)) ∧
  EncodedBy 0xD000 0xF000 (fun op => .drw (fieldX op) (fieldY op) (fieldN op)) ∧
  EncodedBy 0xE09E 0xF0FF (fun op => .skp (fieldX op)) ∧ EncodedBy 0xE0A1 0xF0FF (fun op => .sknp (fieldX op)) ∧
  EncodedBy 0xF007 0xF0FF (fun op => .ldVxDt (fieldX op)) ∧ EncodedBy 0xF00A 0xF0FF (fun op => .ldVxK (fieldX op)) ∧
  EncodedBy 0xF015 0xF0FF (fun op => .ldDtVx (fieldX op)) ∧ EncodedBy 0xF018 0xF0FF (fun op => .ldStVx (fieldX op)) ∧
  EncodedBy 0xF01E 0xF0FF (fun op => .addIVx (fieldX op)) ∧ EncodedBy 0xF029 0xF0FF (fun op => .ldFVx (fieldX op)) ∧
  EncodedBy 0xF033 0xF0FF (fun op => .ldBVx (fieldX op)) ∧ EncodedBy 0xF055 0xF0FF (fun op => .ldMemVx (fieldX op)) ∧
  EncodedBy 0xF065 0xF0FF (fun op => .ldVxMem (fieldX op))

/-- R83: the decoder is total; an opcode is an instruction exactly when it selects a row, invalid otherwise; no two rows
overlap; families 1 to 4, 6, 7, A to D have no invalid opcode. -/
def Obligations.EachOpcodeSelectsOneRowOrIsInvalid : Prop :=
  (∀ op : Opcode, (∃ i, decodeOpcode op = .ok i) ∨ decodeOpcode op = .invalidOpcode op) ∧
  (∀ op : Opcode, (∃ i, decodeOpcode op = .ok i) ↔ ∃ r ∈ opcodeRows, op &&& r.mask = r.pattern) ∧
  (∀ op : Opcode, opcodeRows.Pairwise (fun r r' => ¬(op &&& r.mask = r.pattern ∧ op &&& r'.mask = r'.pattern))) ∧
  (∀ op : Opcode, fieldF op ∈ [0x1, 0x2, 0x3, 0x4, 0x6, 0x7, 0xA, 0xB, 0xC, 0xD] → ∃ i, decodeOpcode op = .ok i)

/-- The illegal opcodes are exactly those of the table of R88 (for families 5, 9 and E the spec's decision D6). -/
def Obligations.IllegalOpcodesAreTheTableOfR88 : Prop :=
  ∀ op : Opcode, decodeOpcode op = .invalidOpcode op ↔ IllegalOpcode op

/-- Decoding the bytes of any instruction gives it back, every operand at every value; the encoding is two bytes. -/
def Obligations.DecodeOfEncodeIsTheInstruction : Prop :=
  ∀ (i : Instr) (rest : List Byte), decode (encode i ++ rest) = .ok i ∧ (encode i).length = 2

/-- Encoding what an opcode decodes to gives the opcode back: no bit of an opcode is dropped, and each instruction has one
opcode. -/
def Obligations.EncodeOfDecodeIsTheOpcode : Prop :=
  ∀ (op : Opcode) (i : Instr), decodeOpcode op = .ok i → encodeOpcode i = op

/-- R92: the opcode of a row from its operands, for all 34 rows. -/
def Obligations.EncodingPlacesOperandsInTheirFields : Prop :=
  ∀ (x y n : Nibble) (kk : Byte) (nnn : Addr),
    encodeOpcode .cls = 0x00E0 ∧ encodeOpcode .ret = 0x00EE ∧
    encodeOpcode (.jp nnn) = 0x1000 ||| nnn.setWidth 16 ∧ encodeOpcode (.call nnn) = 0x2000 ||| nnn.setWidth 16 ∧
    encodeOpcode (.ldI nnn) = 0xA000 ||| nnn.setWidth 16 ∧ encodeOpcode (.jpV0 nnn) = 0xB000 ||| nnn.setWidth 16 ∧
    encodeOpcode (.seByte x kk) = 0x3000 ||| atX x ||| kk.setWidth 16 ∧
    encodeOpcode (.sneByte x kk) = 0x4000 ||| atX x ||| kk.setWidth 16 ∧
    encodeOpcode (.ldByte x kk) = 0x6000 ||| atX x ||| kk.setWidth 16 ∧
    encodeOpcode (.addByte x kk) = 0x7000 ||| atX x ||| kk.setWidth 16 ∧
    encodeOpcode (.rnd x kk) = 0xC000 ||| atX x ||| kk.setWidth 16 ∧
    encodeOpcode (.seReg x y) = 0x5000 ||| atX x ||| atY y ∧ encodeOpcode (.ldReg x y) = 0x8000 ||| atX x ||| atY y ∧
    encodeOpcode (.orReg x y) = 0x8001 ||| atX x ||| atY y ∧ encodeOpcode (.andReg x y) = 0x8002 ||| atX x ||| atY y ∧
    encodeOpcode (.xorReg x y) = 0x8003 ||| atX x ||| atY y ∧ encodeOpcode (.addReg x y) = 0x8004 ||| atX x ||| atY y ∧
    encodeOpcode (.subReg x y) = 0x8005 ||| atX x ||| atY y ∧ encodeOpcode (.shr x y) = 0x8006 ||| atX x ||| atY y ∧
    encodeOpcode (.subnReg x y) = 0x8007 ||| atX x ||| atY y ∧ encodeOpcode (.shl x y) = 0x800E ||| atX x ||| atY y ∧
    encodeOpcode (.sneReg x y) = 0x9000 ||| atX x ||| atY y ∧
    encodeOpcode (.drw x y n) = 0xD000 ||| atX x ||| atY y ||| n.setWidth 16 ∧
    encodeOpcode (.skp x) = 0xE09E ||| atX x ∧ encodeOpcode (.sknp x) = 0xE0A1 ||| atX x ∧
    encodeOpcode (.ldVxDt x) = 0xF007 ||| atX x ∧ encodeOpcode (.ldVxK x) = 0xF00A ||| atX x ∧
    encodeOpcode (.ldDtVx x) = 0xF015 ||| atX x ∧ encodeOpcode (.ldStVx x) = 0xF018 ||| atX x ∧
    encodeOpcode (.addIVx x) = 0xF01E ||| atX x ∧ encodeOpcode (.ldFVx x) = 0xF029 ||| atX x ∧
    encodeOpcode (.ldBVx x) = 0xF033 ||| atX x ∧ encodeOpcode (.ldMemVx x) = 0xF055 ||| atX x ∧
    encodeOpcode (.ldVxMem x) = 0xF065 ||| atX x

/-! ### The step, the cycle and the fetch -/

/-- When the bytes at `PC` decode to an instruction in a Running state whose next step is a cycle, the step is `exec` of it;
the step adds only that one cycle of the frame has been used (log entry 1). -/
def Obligations.StepRunsTheDecodedInstruction : Prop :=
  ∀ (s : State) (k : Nat) (bytes : List Byte) (i : Instr), s.phase = .cycles (k + 1) → s.mode = .running →
    s.fetch = some bytes → decode bytes = .ok i → step s = exec i { s with phase := .cycles k }

/-- A word placed by `withFetchWord` is the instruction the very next step runs (log entry 5). -/
def Obligations.PlacedWordIsRunByTheNextStep : Prop :=
  ∀ (s : State) (w : Nat) (i : Instr), s.mem.wf = true → decodeTableWord 16 w = some i →
    ∃ k, (s.withFetchWord 16 w).phase = .cycles (k + 1) ∧
      step (s.withFetchWord 16 w) = exec i { s.withFetchWord 16 w with phase := .cycles k }

/-- A Running cycle with a fetchable `PC` executes what the two bytes at `PC` decode to (R103): the byte at the lower address
high (decision D2), at every alignment (decision D27). Both decisions are in log entry 8. -/
def Obligations.FetchTakesTheHighByteFromTheLowerAddress : Prop :=
  ∀ (s : State) (op : Opcode) (i : Instr), s.mode = .running → s.pc.toNat ≤ 0xFFE → s.OpcodeAtPc op →
    decodeOpcode op = .ok i → cycle s = exec i s

/-- R102: a Running cycle with `PC > 0xFFE` raises OutOfBounds and changes nothing else; with `PC <= 0xFFE` it does not
raise it at the fetch; a jump, a skip or `Bnnn` completes whatever `PC` it produces, and if that cannot be fetched the next
Running cycle raises it. -/
def Obligations.FetchBeyondMemoryRaisesOutOfBounds : Prop :=
  (∀ s : State, s.mode = .running → s.pc.toNat > 0xFFE →
    cycle s = .next { s with mode := .faulted, faultCause := .outOfBounds }) ∧
  (∀ (s t : State), s.mode = .running → s.pc.toNat ≤ 0xFFE → s.faultCause = .none → cycle s = .next t →
    t.faultCause ≠ .outOfBounds) ∧
  (∀ (s : State) (x y : Nibble) (kk : Byte) (nnn : Addr),
    ∀ i ∈ [Instr.jp nnn, .jpV0 nnn, .seByte x kk, .sneByte x kk, .seReg x y, .sneReg x y], s.mode = .running →
      ∃ t, exec i s = .next t ∧ t.mode = .running ∧ t.faultCause = s.faultCause ∧
        (t.pc.toNat > 0xFFE → cycle t = .next { t with mode := .faulted, faultCause := .outOfBounds }))

/-- R104: a fetched opcode that matches no row raises InvalidOpcode and changes nothing else; one that matches a row does
not. -/
def Obligations.UnmatchedOpcodeRaisesInvalidOpcode : Prop :=
  (∀ (s : State) (op : Opcode), s.mode = .running → s.pc.toNat ≤ 0xFFE → s.OpcodeAtPc op →
    (∀ r ∈ opcodeRows, op &&& r.mask ≠ r.pattern) →
    cycle s = .next { s with mode := .faulted, faultCause := .invalidOpcode }) ∧
  (∀ (s t : State) (op : Opcode), s.mode = .running → s.pc.toNat ≤ 0xFFE → s.OpcodeAtPc op → s.faultCause = .none →
    (∃ r ∈ opcodeRows, op &&& r.mask = r.pattern) → cycle s = .next t → t.faultCause ≠ .invalidOpcode)

/-- The mode gate: a cycle in Faulted or Paused changes nothing (decision D21), and while AwaitingKey it does not look at
memory at all: with any other memory it does the same. -/
def Obligations.CycleIsGatedByTheMode : Prop :=
  (∀ s : State, s.mode = .faulted ∨ s.mode = .paused → cycle s = .next s) ∧
  (∀ (s : State) (m : Memory), s.mode = .awaitingKey →
    ∃ t, cycle s = .next t ∧ cycle (s.writeMem m) = .next (t.writeMem m) ∧ t.mem = s.mem)

/-- The scan of a waiting cycle (R148; that a held key counts is decision D10): the smallest pressed key goes to
`V[WAITREG]`, `PC` advances, the mode is Running; with no key pressed nothing changes. -/
def Obligations.KeyWaitTakesTheLowestPressedKey : Prop :=
  ∀ s : State, s.mode = .awaitingKey →
    (∀ k, k < 16 → s.keys.getLsbD k = true → (∀ j, j < k → s.keys.getLsbD j = false) →
      ∃ t, cycle s = .next t ∧ (t.readV s.waitReg).toNat = k ∧ t.mode = .running ∧ s.Advances t ∧
        s.OnlyWrites t (fun r => r = s.waitReg) [.mode]) ∧
    ((∀ k, k < 16 → s.keys.getLsbD k = false) → cycle s = .next s)

/-- Every state has a next step: the block never stops and the model never refuses (R168, R178). -/
def Obligations.EveryStateHasANextStep : Prop := ∀ s : State, ∃ t, step s = .next t

/-- The new `PC` of every instruction that does not fault, and the `PC` that `2nnn` reads is its own (R107). The pushed
address and the 2 that `00EE` adds are decision D4, `Bnnn` unreduced is decision D18, both in log entry 8. -/
def Obligations.EveryInstructionSetsPcAsTheTableSays : Prop :=
  (∀ (i : Instr) (s t : State), s.mode ≠ .faulted → exec i s = .next t → t.mode ≠ .faulted → t.pc.toNat = pcAfter s i) ∧
  ∀ (s t : State) (nnn : Addr), s.mode ≠ .faulted → exec (.call nnn) s = .next t → t.mode ≠ .faulted →
    t.stack.toList.getD s.sp.val 0 = s.pc

/-- The fault matrix (R175, R190; the six execution conditions are decisions D3, D5, D8): an instruction whose condition
holds raises exactly that fault and changes nothing else; every other instruction completes without one. -/
def Obligations.FaultsAreExactlyTheMatrix : Prop :=
  (∀ (i : Instr) (s : State) (f : FaultCause), faultOf s i = some f →
    exec i s = .next { s with mode := .faulted, faultCause := f }) ∧
  (∀ (i : Instr) (s : State), s.mode = .running → faultOf s i = none →
    ∃ t, exec i s = .next t ∧ t.mode ≠ .faulted ∧ t.faultCause = s.faultCause)

/-- Who writes what, over all 34 instructions (the "Written by" column of R20, the table of R25 for the registers): every
other instruction leaves that piece of state alone. `FAULT_CAUSE` is written by fault entry only, `MODE` by fault entry and
`Fx0A`, `PC` by an instruction that does neither. The fields `phase`, `draws`, `frameNo` and `inputs` are the model's own (log
entries 1 to 3). -/
def Obligations.OnlyTheNamedInstructionsWriteEachPieceOfState : Prop :=
  ∀ (i : Instr) (s t : State), exec i s = .next t →
    (∀ r, ¬i.WritesV r → t.readV r = s.readV r) ∧
    ((∀ x, i ≠ .ldBVx x ∧ i ≠ .ldMemVx x) → t.mem = s.mem) ∧
    ((∀ nnn, i ≠ .call nnn) → t.stack = s.stack) ∧
    ((∀ nnn, i ≠ .call nnn ∧ i ≠ .ret) → t.sp = s.sp) ∧
    ((∀ x, i ≠ .ldDtVx x) → t.dt = s.dt) ∧
    ((∀ x, i ≠ .ldStVx x) → t.st = s.st) ∧
    ((∀ x y n, i ≠ .cls ∧ i ≠ .drw x y n) → t.disp = s.disp) ∧
    ((∀ nnn x, i ≠ .ldI nnn ∧ i ≠ .addIVx x ∧ i ≠ .ldFVx x ∧ i ≠ .ldMemVx x ∧ i ≠ .ldVxMem x) → t.i = s.i) ∧
    ((∀ x, i ≠ .ldVxK x) → t.waitReg = s.waitReg) ∧
    ((∀ x kk, i ≠ .rnd x kk) → t.draws = s.draws) ∧
    (t.faultCause ≠ s.faultCause → t = { s with mode := .faulted, faultCause := t.faultCause }) ∧
    (t.mode ≠ s.mode → (∃ x, i = .ldVxK x ∧ t.mode = .awaitingKey) ∨
      t = { s with mode := .faulted, faultCause := t.faultCause }) ∧
    (t.pc ≠ s.pc → (∀ x, i ≠ .ldVxK x) ∧ t.mode = s.mode ∧ t.faultCause = s.faultCause) ∧
    t.keys = s.keys ∧ t.out = s.out ∧ t.phase = s.phase ∧ t.frameNo = s.frameNo ∧ t.inputs = s.inputs ∧
    t.params = s.params

/-- A store is seen by the next fetch (R71): after `Fx55` or `Fx33`, wherever `I` points inside memory, the two bytes fetched
from the next instruction are the stored ones where the store covers them, and else what memory held. -/
def Obligations.NextFetchSeesTheStore : Prop :=
  ∀ (s : State) (x : Nibble), s.mem.wf = true → s.pc.toNat ≤ 0xFFC →
    (s.i.toNat + x.toNat ≤ 0xFFF → ∃ t, exec (.ldMemVx x) s = .next t ∧ t.fetch =
      some [s.byteAfterStore (x.toNat + 1) (fun k => s.readV (BitVec.ofNat 4 k)) (s.pc.toNat + 2),
        s.byteAfterStore (x.toNat + 1) (fun k => s.readV (BitVec.ofNat 4 k)) (s.pc.toNat + 3)]) ∧
    (s.i.toNat + 2 ≤ 0xFFF → ∃ t, exec (.ldBVx x) s = .next t ∧ t.fetch =
      some [s.byteAfterStore 3 (digit (s.readV x)) (s.pc.toNat + 2),
        s.byteAfterStore 3 (digit (s.readV x)) (s.pc.toNat + 3)])

/-! ### Invariants and runs -/

/-- The reset state, and every load of a legal image, meets the invariant. -/
def Obligations.LoadedStateMeetsTheInvariant : Prop := State.reset.Inv ∧ ∀ p : Params, p.Legal → (State.load p).Inv

/-- Every step keeps the invariant: the bounds of R45, memory in canonical form, legal parameters. -/
def Obligations.EveryStepKeepsTheInvariant : Prop := ∀ s t : State, s.Inv → step s = .next t → t.Inv

/-- R45 (which the spec derives): whatever the image, the cycles per frame, the placed inputs and the free values, after any
number of steps from load the bounds hold. -/
def Obligations.ReachableStatesStayInBounds : Prop :=
  ∀ (p : Params) (inputs : List FrameInput) (n : Nat), p.Legal →
    ∃ t : State, Host.Core.run Sys2Proof.core n { State.load p with inputs := inputs } = .next t ∧ t.InBounds ∧
      t.sp.val ≤ 16 ∧ t.mem.wf = true

/-- The steps of one frame are the frame event of R160 (log entry 1): from the start of a frame, some number of steps, at
most `CYCLES_PER_FRAME` and two, reaches exactly the state the atomic event gives, at the start of the next frame. -/
def Obligations.StepsOfAFrameAreTheFrameEvent : Prop :=
  ∀ s : State, s.phase = .frameStart →
    ∃ (n : Nat) (t : State), n ≤ s.params.cyclesPerFrame + 2 ∧
      Host.Core.run Sys2Proof.core n s = .next t ∧ frame s.nextInput s.takeInput = .next t ∧ t.phase = .frameStart

/-- A program that has finished (R205, decision D26) stays as it is under further cycles. -/
def Obligations.FinishedProgramsAreFixedPointsOfTheCycle : Prop :=
  ∀ (inputs : Nat → FrameInput) (s : State), s.Finished inputs → cycle s = .next s

/-! ### Reset and the frame -/

/-- Load (R200): for every legal image and every font, memory holds the font at 0, the image at 0x200 and zero elsewhere, and every
register its reset value (`STACK`, `KEYS`, `WAITREG`, `FAULT_CAUSE` by decision D23; the font is the parameter, whatever its bytes).
`State.reset` is the load of its own parameters. -/
def Obligations.LoadInstallsFontAndImage : Prop :=
  State.reset = State.load State.reset.params ∧ ∀ p : Params, p.Legal →
    (∀ (a : Nat) (h : a < 80), (State.load p).mem.byte a = p.font[a]) ∧
    (∀ j, j < p.rom.length → (State.load p).mem.byte (0x200 + j) = p.rom.getD j 0) ∧
    (∀ a, 80 ≤ a → a < 0x200 ∨ 0x200 + p.rom.length ≤ a → (State.load p).mem.byte a = 0) ∧
    (∀ r, (State.load p).readV r = 0) ∧ (State.load p).pc.toNat = 0x200 ∧ (State.load p).i = 0 ∧
    (∀ (k : Nat) (h : k < 16), (State.load p).stack[k] = 0) ∧ (State.load p).sp.val = 0 ∧
    (State.load p).dt = 0 ∧ (State.load p).st = 0 ∧ (∀ x y, (State.load p).disp.pixel x y = false) ∧
    (State.load p).keys = 0 ∧ (State.load p).mode = .running ∧ (State.load p).waitReg = 0 ∧
    (State.load p).faultCause = .none

/-- A reset request (R163, R201; that it wins over a toggle and that the keys are refreshed after it is decision D12): in
every mode the frame starts from the load of the same parameters, with this frame's keys. -/
def Obligations.ResetRequestReloadsTheMachine : Prop :=
  ∀ s : State, s.phase = .frameStart → s.nextInput.resetReq = true →
    ∃ t, step s = .next t ∧ t.mode = .running ∧ t.mem = (State.load s.params).mem ∧ t.v = (State.load s.params).v ∧
      t.pc = (State.load s.params).pc ∧ t.i = (State.load s.params).i ∧ t.stack = (State.load s.params).stack ∧
      t.sp = (State.load s.params).sp ∧ t.dt = (State.load s.params).dt ∧ t.st = (State.load s.params).st ∧
      t.disp = (State.load s.params).disp ∧ t.waitReg = (State.load s.params).waitReg ∧ t.faultCause = .none ∧
      t.keys = s.nextInput.keysIn ∧ t.phase = .cycles s.params.cyclesPerFrame ∧ t.params = s.params

/-- A frame that begins without a reset request (R162; the targets of the toggle are decision D11): the toggle flips the
mode as R180 says, the keys are refreshed, and nothing else changes. -/
def Obligations.PauseToggleFlipsTheModeOnly : Prop :=
  ∀ s : State, s.phase = .frameStart → s.nextInput.resetReq = false →
    ∃ t, step s = .next t ∧ t.keys = s.nextInput.keysIn ∧ t.phase = .cycles s.params.cyclesPerFrame ∧ t.pc = s.pc ∧
      s.OnlyWrites t noRegs [.keys, .mode, .phase, .frames] ∧
      (s.nextInput.pauseToggle = false → t.mode = s.mode) ∧
      (s.nextInput.pauseToggle = true → s.mode = .running ∨ s.mode = .awaitingKey → t.mode = .paused) ∧
      (s.nextInput.pauseToggle = true → s.mode = .paused → t.mode = .running) ∧
      (s.nextInput.pauseToggle = true → s.mode = .faulted → t.mode = .faulted)

/-- The keys change only at the start of a frame, and there they are the sampled vector, in every mode (R161; after a reset
by decision D12). -/
def Obligations.KeysChangeOnlyAtTheStartOfAFrame : Prop :=
  ∀ s t : State, step s = .next t →
    (s.phase = .frameStart → t.keys = s.nextInput.keysIn) ∧ (s.phase ≠ .frameStart → t.keys = s.keys)

/-- The end of a frame (R165; in every mode by decision D13): each timer is one less, floored at 0, and nothing changes but
the timers and the outputs. -/
def Obligations.TimersDecayOnceAtTheEndOfAFrame : Prop :=
  ∀ s : State, s.AtFrameEnd →
    ∃ t, step s = .next t ∧ t.dt.toNat = s.dt.toNat - 1 ∧ t.st.toNat = s.st.toNat - 1 ∧ t.pc = s.pc ∧
      t.phase = .frameStart ∧ s.OnlyWrites t noRegs [.delayTimer, .soundTimer, .outputs, .phase]

/-- The outputs presented at the end of a frame (R166, R41; the bit order is decision D1 and the codes are D16), with the
sound timer after the decay; at any other step they stay as they are. That they stay also at the step that takes a reset
request is the model's reading of R41 (log entry 7), and which steps there are is log entry 1. -/
def Obligations.OutputsArePresentedAtTheEndOfAFrame : Prop :=
  (∀ s : State, s.AtFrameEnd → ∃ t, step s = .next t ∧
    (∀ x y, x < 64 → y < 32 → t.out.disp.getLsbD (64 * y + x) = s.disp.pixel x y) ∧
    t.out.soundTimer.toNat = s.st.toNat - 1 ∧
    (s.mode = .running → t.out.mode = 0) ∧ (s.mode = .awaitingKey → t.out.mode = 1) ∧
    (s.mode = .faulted → t.out.mode = 2) ∧ (s.mode = .paused → t.out.mode = 3) ∧
    (s.faultCause = .none → t.out.faultCause = 0) ∧ (s.faultCause = .outOfBounds → t.out.faultCause = 1) ∧
    (s.faultCause = .invalidOpcode → t.out.faultCause = 2) ∧ (s.faultCause = .stackOverflow → t.out.faultCause = 3) ∧
    (s.faultCause = .stackUnderflow → t.out.faultCause = 4) ∧ (s.faultCause = .dataOutOfBounds → t.out.faultCause = 5) ∧
    (s.faultCause = .keyOutOfRange → t.out.faultCause = 6)) ∧
  (∀ s t : State, ¬s.AtFrameEnd → step s = .next t → t.out = s.out)

/-- While Faulted every cycle is the identity, and a step, unless it samples a reset request, leaves mode and cause and
everything but the keys, the timers and the outputs as they are (R178). The identity is decision D21, the ignored toggle
D11, the decay D13, all in log entry 8; the clauses by phase and the sampled input rest on log entries 1 and 3. -/
def Obligations.FaultedIsAbsorbingUntilReset : Prop :=
  ∀ s : State, s.mode = .faulted → cycle s = .next s ∧
    (¬(s.phase = .frameStart ∧ s.nextInput.resetReq = true) →
      ∃ t, step s = .next t ∧ t.mode = .faulted ∧ t.faultCause = s.faultCause ∧ t.pc = s.pc ∧
        s.OnlyWrites t noRegs [.keys, .delayTimer, .soundTimer, .outputs, .phase, .frames] ∧
        (s.phase = .frameStart → t.keys = s.nextInput.keysIn ∧ t.dt = s.dt ∧ t.st = s.st ∧ t.out = s.out) ∧
        (s.phase ≠ .frameStart → t.keys = s.keys ∧ t.dt.toNat = s.dt.toNat - 1 ∧ t.st.toNat = s.st.toNat - 1 ∧
          t.out.disp = s.disp ∧ t.phase = .frameStart))

/-- The mode machine (R180; pause from a key wait and resume to Running are decision D11): the only ways a step changes the
mode. -/
def Obligations.ModeChangesOnlyAsTheTableSays : Prop :=
  ∀ s t : State, step s = .next t → t.mode = s.mode ∨
    (s.phase = .frameStart ∧ s.nextInput.resetReq = true ∧ t.mode = .running) ∨
    (s.phase = .frameStart ∧ s.nextInput.resetReq = false ∧ s.nextInput.pauseToggle = true ∧
      ((s.mode = .running ∨ s.mode = .awaitingKey) ∧ t.mode = .paused ∨ s.mode = .paused ∧ t.mode = .running)) ∨
    (∃ k, s.phase = .cycles (k + 1) ∧ s.mode = .running ∧ t.mode = .awaitingKey ∧
      ∃ op, s.OpcodeAtPc op ∧ decodeOpcode op = .ok (.ldVxK t.waitReg)) ∨
    (∃ k, s.phase = .cycles (k + 1) ∧ s.mode = .running ∧ t.mode = .faulted ∧ t.faultCause ≠ .none) ∨
    (∃ k, s.phase = .cycles (k + 1) ∧ s.mode = .awaitingKey ∧ t.mode = .running ∧ s.keys ≠ 0)

/-! ### Control flow and skips -/

/-- R116: `1nnn` jumps to `nnn`, unchecked, and at its own address changes nothing. -/
def Obligations.JumpSetsPcToTheAddress : Prop :=
  EncodedBy 0x1000 0xF000 (fun op => .jp (fieldNNN op)) ∧
  ∀ (s : State) (nnn : Addr),
    (∃ t, exec (.jp nnn) s = .next t ∧ t.pc.toNat = nnn.toNat ∧ s.OnlyWrites t noRegs []) ∧
    (s.pc.toNat = nnn.toNat → exec (.jp nnn) s = .next s)

/-- `2nnn` (R117; the fault is decision D3, the pushed address D4): below 16 entries it pushes its own address and jumps; at
16 it faults and changes nothing else. -/
def Obligations.CallPushesItsOwnAddress : Prop :=
  ∀ (s : State) (nnn : Addr),
    (s.sp.val < 16 → ∃ t, exec (.call nnn) s = .next t ∧ t.pc.toNat = nnn.toNat ∧ t.sp.val = s.sp.val + 1 ∧
      (∀ (k : Nat) (h : k < 16), t.stack[k] = if k = s.sp.val then s.pc else s.stack[k]) ∧
      s.OnlyWrites t noRegs [.stack, .stackPointer]) ∧
    (s.sp.val = 16 → exec (.call nnn) s = .next { s with mode := .faulted, faultCause := .stackOverflow })

/-- `00EE` (R115; the fault is decision D3, the added 2 is D4): above 0 entries it pops and continues 2 past the popped
address, leaving the entry in place; at 0 it faults and changes nothing else. -/
def Obligations.ReturnContinuesAfterThePoppedCall : Prop :=
  ∀ s : State,
    (∀ (k : Nat) (h : k < 16), s.sp.val = k + 1 → ∃ t, exec .ret s = .next t ∧ t.sp.val = k ∧
      t.pc.toNat = ((s.stack[k]).toNat + 2) % 65536 ∧ s.OnlyWrites t noRegs [.stackPointer]) ∧
    (s.sp.val = 0 → exec .ret s = .next { s with mode := .faulted, faultCause := .stackUnderflow })

/-- R119 (which the spec derives): a call at `a`, anything that leaves `SP` and the live entries as the call left them, then
a return, continues at `a + 2` with the `SP` of before the call. -/
def Obligations.CallThenReturnContinuesAfterTheCall : Prop :=
  ∀ (s t u : State) (nnn : Addr), s.sp.val < 16 → s.pc.toNat ≤ 0xFFE → exec (.call nnn) s = .next t → u.sp = t.sp →
    (∀ (k : Nat) (h : k < 16), k < t.sp.val → u.stack[k] = t.stack[k]) →
    ∃ w, exec .ret u = .next w ∧ w.pc.toNat = s.pc.toNat + 2 ∧ w.sp = s.sp

/-- `Bnnn` (R118; that the sum is not reduced to 12 bits is decision D18). -/
def Obligations.IndexedJumpAddsV0 : Prop :=
  ∀ (s : State) (nnn : Addr), ∃ t, exec (.jpV0 nnn) s = .next t ∧
    t.pc.toNat = (nnn.toNat + (s.readV 0).toNat) % 65536 ∧ t.pc.toNat ≤ 0x10FE ∧ s.OnlyWrites t noRegs []

/-- R120, R121: `3xkk` skips exactly when `V[x] = kk`, `4xkk` exactly when it differs. -/
def Obligations.ByteSkipsCompareRegisterAndByte : Prop :=
  EncodedBy 0x3000 0xF000 (fun op => .seByte (fieldX op) (fieldKK op)) ∧
  EncodedBy 0x4000 0xF000 (fun op => .sneByte (fieldX op) (fieldKK op)) ∧
  ∀ (s : State) (x : Nibble) (kk : Byte),
    (∃ t, exec (.seByte x kk) s = .next t ∧ s.SkipsIf t ((s.readV x).toNat = kk.toNat) ∧ s.OnlyWrites t noRegs []) ∧
    (∃ t, exec (.sneByte x kk) s = .next t ∧ s.SkipsIf t ((s.readV x).toNat ≠ kk.toNat) ∧ s.OnlyWrites t noRegs [])

/-- `5xy0` and `9xy0` (R122, R123) compare two registers, and in every state exactly one of them skips (R124, derived by the
spec). -/
def Obligations.RegisterSkipsCompareTwoRegisters : Prop :=
  ∀ (s : State) (x y : Nibble), ∃ t u, exec (.seReg x y) s = .next t ∧ exec (.sneReg x y) s = .next u ∧
    s.SkipsIf t ((s.readV x).toNat = (s.readV y).toNat) ∧ s.SkipsIf u ((s.readV x).toNat ≠ (s.readV y).toNat) ∧
    t.pc ≠ u.pc ∧ s.OnlyWrites t noRegs [] ∧ s.OnlyWrites u noRegs []

/-! ### Loads, arithmetic, logic -/

/-- R125: `6xkk` loads the byte; with `x` = 0xF it writes `VF` like any register. -/
def Obligations.LoadByteWritesTheRegister : Prop :=
  EncodedBy 0x6000 0xF000 (fun op => .ldByte (fieldX op) (fieldKK op)) ∧
  ∀ (s : State) (x : Nibble) (kk : Byte), ∃ t, exec (.ldByte x kk) s = .next t ∧ t.readV x = kk ∧ s.Advances t ∧
    s.OnlyWrites t (fun r => r = x) []

/-- R126: `7xkk` adds modulo 256 and writes no flag. -/
def Obligations.AddByteWrapsWithoutAFlag : Prop :=
  EncodedBy 0x7000 0xF000 (fun op => .addByte (fieldX op) (fieldKK op)) ∧
  ∀ (s : State) (x : Nibble) (kk : Byte), ∃ t, exec (.addByte x kk) s = .next t ∧
    (t.readV x).toNat = ((s.readV x).toNat + kk.toNat) % 256 ∧ s.Advances t ∧ s.OnlyWrites t (fun r => r = x) []

/-- R127: `Annn` loads `I`. -/
def Obligations.LoadIndexZeroExtendsTheAddress : Prop :=
  EncodedBy 0xA000 0xF000 (fun op => .ldI (fieldNNN op)) ∧
  ∀ (s : State) (nnn : Addr), ∃ t, exec (.ldI nnn) s = .next t ∧ t.i.toNat = nnn.toNat ∧ s.Advances t ∧
    s.OnlyWrites t noRegs [.index]

/-- `Cxkk` (R128; that the byte is a free input is decision D9, its form here log entry 2): the register is the drawn byte
under the mask, so no bit outside `kk` is set, and the next draw is another free value. -/
def Obligations.RandomByteIsMasked : Prop :=
  ∀ (s : State) (x : Nibble) (kk : Byte), ∃ t, exec (.rnd x kk) s = .next t ∧
    (∀ k, (t.readV x).getLsbD k = ((Config.rnd s.draws).getLsbD k && kk.getLsbD k)) ∧
    (∀ k, kk.getLsbD k = false → (t.readV x).getLsbD k = false) ∧ t.draws = s.draws + 1 ∧ s.Advances t ∧
    s.OnlyWrites t (fun r => r = x) [.draws]

/-- `8xy0` to `8xy3` (R130 to R133; that `VF` is not touched as a flag is decision D25): copy and bitwise logic. -/
def Obligations.CopyAndLogicWriteOnlyTheDestination : Prop :=
  ∀ (s : State) (x y : Nibble),
    (∃ t, exec (.ldReg x y) s = .next t ∧ t.readV x = s.readV y ∧ s.Advances t ∧ s.OnlyWrites t (fun r => r = x) []) ∧
    (∃ t, exec (.orReg x y) s = .next t ∧
      (∀ k, (t.readV x).getLsbD k = ((s.readV x).getLsbD k || (s.readV y).getLsbD k)) ∧ s.Advances t ∧
      s.OnlyWrites t (fun r => r = x) []) ∧
    (∃ t, exec (.andReg x y) s = .next t ∧
      (∀ k, (t.readV x).getLsbD k = ((s.readV x).getLsbD k && (s.readV y).getLsbD k)) ∧ s.Advances t ∧
      s.OnlyWrites t (fun r => r = x) []) ∧
    (∃ t, exec (.xorReg x y) s = .next t ∧
      (∀ k, (t.readV x).getLsbD k = ((s.readV x).getLsbD k ^^ (s.readV y).getLsbD k)) ∧ s.Advances t ∧
      s.OnlyWrites t (fun r => r = x) [])

/-- `8xy4` (R134; operands first, flag last, is decision D7): the carry in `VF`, the sum in `V[x]` unless `x` is F. -/
def Obligations.AddRegistersSetsCarry : Prop :=
  ∀ (s : State) (x y : Nibble), ∃ t, exec (.addReg x y) s = .next t ∧
    (t.readV vf).toNat = (if (s.readV x).toNat + (s.readV y).toNat > 255 then 1 else 0) ∧
    (x ≠ vf → (t.readV x).toNat = ((s.readV x).toNat + (s.readV y).toNat) % 256) ∧ s.Advances t ∧
    s.OnlyWrites t (fun r => r = x ∨ r = vf) []

/-- `8xy5` and `8xy7` (R135, R137; order by decision D7): the difference modulo 256 and the not-borrow in `VF`. -/
def Obligations.SubtractionsSetNotBorrow : Prop :=
  ∀ (s : State) (x y : Nibble),
    (∃ t, exec (.subReg x y) s = .next t ∧
      (t.readV vf).toNat = (if (s.readV x).toNat ≥ (s.readV y).toNat then 1 else 0) ∧
      (x ≠ vf → ((t.readV x).toNat : Int) = (((s.readV x).toNat : Int) - ((s.readV y).toNat : Int)) % 256) ∧
      s.Advances t ∧ s.OnlyWrites t (fun r => r = x ∨ r = vf) []) ∧
    (∃ t, exec (.subnReg x y) s = .next t ∧
      (t.readV vf).toNat = (if (s.readV y).toNat ≥ (s.readV x).toNat then 1 else 0) ∧
      (x ≠ vf → ((t.readV x).toNat : Int) = (((s.readV y).toNat : Int) - ((s.readV x).toNat : Int)) % 256) ∧
      s.Advances t ∧ s.OnlyWrites t (fun r => r = x ∨ r = vf) [])

/-- `8xy6` and `8xyE` (R136, R138; order by decision D7): shift `V[x]` by one, the bit shifted out in `VF`, `V[y]` neither
read nor written. -/
def Obligations.ShiftsMoveOneBitIntoVf : Prop :=
  ∀ (s : State) (x y : Nibble),
    (∃ t, exec (.shr x y) s = .next t ∧ (t.readV vf).toNat = (s.readV x).toNat % 2 ∧
      (x ≠ vf → (t.readV x).toNat = (s.readV x).toNat / 2) ∧ s.Advances t ∧
      s.OnlyWrites t (fun r => r = x ∨ r = vf) [] ∧ ∀ y', exec (.shr x y') s = .next t) ∧
    (∃ t, exec (.shl x y) s = .next t ∧ (t.readV vf).toNat = (s.readV x).toNat / 128 ∧
      (x ≠ vf → (t.readV x).toNat = ((s.readV x).toNat * 2) % 256) ∧ s.Advances t ∧
      s.OnlyWrites t (fun r => r = x ∨ r = vf) [] ∧ ∀ y', exec (.shl x y') s = .next t)

/-! ### Display -/

/-- R140: `00E0` clears all 2048 pixels and writes no register. -/
def Obligations.ClearSetsEveryPixelToZero : Prop :=
  EncodedBy 0x00E0 0xFFFF (fun _ => .cls) ∧
  ∀ s : State, ∃ t, exec .cls s = .next t ∧ (∀ x y, x < 64 → y < 32 → t.disp.pixel x y = false) ∧ s.Advances t ∧
    s.OnlyWrites t noRegs [.display]

/-- `Dxyn` (R141 to R143; bounds by decision D5, order by D7, bit order by D15, `n` = 0 by D20): a pixel is inverted exactly
when a set bit of the sprite lands on it, `VF` is 1 exactly when one of those pixels was set, and nothing else changes; a
range that leaves memory faults with no other change. -/
def Obligations.DrawInvertsTheCoveredPixels : Prop :=
  ∀ (s : State) (x y n : Nibble),
    (n.toNat = 0 ∨ s.i.toNat + n.toNat - 1 ≤ 0xFFF → ∃ t, exec (.drw x y n) s = .next t ∧
      (∀ px py, px < 64 → py < 32 →
        (s.SpriteCovers x y n px py → t.disp.pixel px py = !(s.disp.pixel px py)) ∧
        (¬s.SpriteCovers x y n px py → t.disp.pixel px py = s.disp.pixel px py)) ∧
      ((∃ px py, s.SpriteCovers x y n px py ∧ s.disp.pixel px py = true) → (t.readV vf).toNat = 1) ∧
      ((¬∃ px py, s.SpriteCovers x y n px py ∧ s.disp.pixel px py = true) → (t.readV vf).toNat = 0) ∧
      s.Advances t ∧ s.OnlyWrites t (fun r => r = vf) [.display]) ∧
    (0 < n.toNat → s.i.toNat + n.toNat - 1 > 0xFFF →
      exec (.drw x y n) s = .next { s with mode := .faulted, faultCause := .dataOutOfBounds })

/-- The second of two identical draws undoes the first (R143 item 5, derived by the spec): same position, same `I`, same
sprite bytes, on the display the first left. The second has a collision exactly when the first turned some covered pixel on;
so it has one if the first had none and the sprite has a set bit. -/
def Obligations.DrawingTwiceRestoresTheDisplay : Prop :=
  ∀ (s t u : State) (x y n : Nibble), n.toNat = 0 ∨ s.i.toNat + n.toNat - 1 ≤ 0xFFF → exec (.drw x y n) s = .next t →
    u.disp = t.disp → u.i = s.i → (∀ a, u.mem.byte a = s.mem.byte a) → u.readV x = s.readV x → u.readV y = s.readV y →
    ∃ w, exec (.drw x y n) u = .next w ∧ w.disp = s.disp ∧
      ((∃ px py, s.SpriteCovers x y n px py ∧ s.disp.pixel px py = false) → (w.readV vf).toNat = 1) ∧
      ((¬∃ px py, s.SpriteCovers x y n px py ∧ s.disp.pixel px py = false) → (w.readV vf).toNat = 0) ∧
      ((t.readV vf).toNat = 0 → (∃ px py, s.SpriteCovers x y n px py) → (w.readV vf).toNat = 1)

/-! ### Keys -/

/-- `Ex9E` and `ExA1` (R145, R146; the fault is decision D8): skip on the key numbered by `V[x]`; above 15, fault and change
nothing else. -/
def Obligations.KeySkipsTestTheKeyInTheRegister : Prop :=
  ∀ (s : State) (x : Nibble),
    ((s.readV x).toNat ≤ 15 → ∃ t u, exec (.skp x) s = .next t ∧ exec (.sknp x) s = .next u ∧
      s.SkipsIf t (s.keys.getLsbD (s.readV x).toNat = true) ∧ s.SkipsIf u (s.keys.getLsbD (s.readV x).toNat = false) ∧
      s.OnlyWrites t noRegs [] ∧ s.OnlyWrites u noRegs []) ∧
    ((s.readV x).toNat > 15 →
      exec (.skp x) s = .next { s with mode := .faulted, faultCause := .keyOutOfRange } ∧
      exec (.sknp x) s = .next { s with mode := .faulted, faultCause := .keyOutOfRange })

/-- `Fx0A` (R147; that the entering cycle does not scan is decision D10): the wait begins, `PC` and every register as
before. -/
def Obligations.WaitForKeyHoldsPc : Prop :=
  ∀ (s : State) (x : Nibble), ∃ t, exec (.ldVxK x) s = .next t ∧ t.mode = .awaitingKey ∧ t.waitReg = x ∧ t.pc = s.pc ∧
    s.OnlyWrites t noRegs [.mode, .waitReg]

/-! ### Timers, index, memory -/

/-- R150, R151, R152: `Fx07` reads the delay timer, `Fx15` and `Fx18` set a timer to a register. -/
def Obligations.TimerInstructionsMoveOneByte : Prop :=
  EncodedBy 0xF007 0xF0FF (fun op => .ldVxDt (fieldX op)) ∧ EncodedBy 0xF015 0xF0FF (fun op => .ldDtVx (fieldX op)) ∧
  EncodedBy 0xF018 0xF0FF (fun op => .ldStVx (fieldX op)) ∧
  ∀ (s : State) (x : Nibble),
    (∃ t, exec (.ldVxDt x) s = .next t ∧ t.readV x = s.dt ∧ s.Advances t ∧ s.OnlyWrites t (fun r => r = x) []) ∧
    (∃ t, exec (.ldDtVx x) s = .next t ∧ t.dt = s.readV x ∧ s.Advances t ∧ s.OnlyWrites t noRegs [.delayTimer]) ∧
    (∃ t, exec (.ldStVx x) s = .next t ∧ t.st = s.readV x ∧ s.Advances t ∧ s.OnlyWrites t noRegs [.soundTimer])

/-- `Fx1E` (R153; no reduction to 12 bits is decision D18): the sum modulo 65536, `VF` untouched. -/
def Obligations.AddToIndexWrapsAt65536 : Prop :=
  ∀ (s : State) (x : Nibble), ∃ t, exec (.addIVx x) s = .next t ∧
    t.i.toNat = (s.i.toNat + (s.readV x).toNat) % 65536 ∧ s.Advances t ∧ s.OnlyWrites t noRegs [.index]

/-- R154: `Fx29` computes the glyph address from the low nibble. -/
def Obligations.FontAddressIsFiveTimesTheDigit : Prop :=
  EncodedBy 0xF029 0xF0FF (fun op => .ldFVx (fieldX op)) ∧
  ∀ (s : State) (x : Nibble), ∃ t, exec (.ldFVx x) s = .next t ∧ t.i.toNat = ((s.readV x).toNat % 16) * 5 ∧
    s.Advances t ∧ s.OnlyWrites t noRegs [.index]

/-- `Fx33` (R155; bounds by decision D5): hundreds, tens, ones at `I`, `I + 1`, `I + 2`; every other byte and `I` as before; a
range that leaves memory faults with no other change. -/
def Obligations.StoreDecimalDigitsAtIndex : Prop :=
  ∀ (s : State) (x : Nibble),
    (s.mem.wf = true → s.i.toNat + 2 ≤ 0xFFF → ∃ t, exec (.ldBVx x) s = .next t ∧
      (t.mem.byte s.i.toNat).toNat = (s.readV x).toNat / 100 ∧
      (t.mem.byte (s.i.toNat + 1)).toNat = (s.readV x).toNat / 10 % 10 ∧
      (t.mem.byte (s.i.toNat + 2)).toNat = (s.readV x).toNat % 10 ∧
      (∀ a, a < s.i.toNat ∨ s.i.toNat + 2 < a → t.mem.byte a = s.mem.byte a) ∧ s.Advances t ∧
      s.OnlyWrites t noRegs [.memory]) ∧
    (s.i.toNat + 2 > 0xFFF → exec (.ldBVx x) s = .next { s with mode := .faulted, faultCause := .dataOutOfBounds })

/-- `Fx55` (R156; bounds by decision D5): `V[0]` to `V[x]` at `I` to `I + x`, every other byte as before, `I` advanced by
`x + 1`, the registers as before; a range that leaves memory faults with no other change. -/
def Obligations.StoreRegistersAtIndex : Prop :=
  ∀ (s : State) (x : Nibble),
    (s.mem.wf = true → s.i.toNat + x.toNat ≤ 0xFFF → ∃ t, exec (.ldMemVx x) s = .next t ∧
      (∀ r : Nibble, r.toNat ≤ x.toNat → t.mem.byte (s.i.toNat + r.toNat) = s.readV r) ∧
      (∀ a, a < s.i.toNat ∨ s.i.toNat + x.toNat < a → t.mem.byte a = s.mem.byte a) ∧
      t.i.toNat = (s.i.toNat + x.toNat + 1) % 65536 ∧ s.Advances t ∧ s.OnlyWrites t noRegs [.memory, .index]) ∧
    (s.i.toNat + x.toNat > 0xFFF →
      exec (.ldMemVx x) s = .next { s with mode := .faulted, faultCause := .dataOutOfBounds })

/-- `Fx65` (R157; bounds by decision D5): `MEM[I]` to `MEM[I + x]` into `V[0]` to `V[x]`, the other registers and memory as
before, `I` advanced by `x + 1`; a range that leaves memory faults with no other change. -/
def Obligations.LoadRegistersFromIndex : Prop :=
  ∀ (s : State) (x : Nibble),
    (s.i.toNat + x.toNat ≤ 0xFFF → ∃ t, exec (.ldVxMem x) s = .next t ∧
      (∀ r : Nibble, r.toNat ≤ x.toNat → t.readV r = s.mem.byte (s.i.toNat + r.toNat)) ∧
      t.i.toNat = (s.i.toNat + x.toNat + 1) % 65536 ∧ s.Advances t ∧
      s.OnlyWrites t (fun r => r.toNat ≤ x.toNat) [.index]) ∧
    (s.i.toNat + x.toNat > 0xFFF →
      exec (.ldVxMem x) s = .next { s with mode := .faulted, faultCause := .dataOutOfBounds })

/-! ### The end of a program -/

/-- A program that has finished (R205, decision D26) stays so in every later frame, and nothing but `DT`, `ST`, `KEYS` and the
output ports changes, as long as no reset and no pause is requested: a self-jump, a key wait in which no key is ever pressed,
or a fault. (`phase` is the model's own, log entry 1.) -/
def Obligations.FinishedProgramsKeepTheirStateInEveryLaterFrame : Prop :=
  ∀ (inputs : Nat → FrameInput) (s : State) (n : Nat), s.Finished inputs → NoControls inputs →
    ∃ t, runFrames inputs n s = .next t ∧ t.Finished (fun k => inputs (k + n)) ∧ t.pc = s.pc ∧
      s.OnlyWrites t noRegs [.keys, .delayTimer, .soundTimer, .outputs, .phase]
end

