-- ==== Sys2Proof/Laws/State.lean ====
section
/-! SUPPORT. One lemma per field per update of State, true by rfl, so that no proof unfolds a record update. -/

namespace Sys2Proof.Machine

variable (s : State)

@[simp] theorem State.writeV_mem (x : Nibble) (b : Byte) : (s.writeV x b).mem = s.mem := rfl
@[simp] theorem State.writeV_v (x : Nibble) (b : Byte) : (s.writeV x b).v = s.v.set x.toNat b x.isLt := rfl
@[simp] theorem State.writeV_i (x : Nibble) (b : Byte) : (s.writeV x b).i = s.i := rfl
@[simp] theorem State.writeV_pc (x : Nibble) (b : Byte) : (s.writeV x b).pc = s.pc := rfl
@[simp] theorem State.writeV_stack (x : Nibble) (b : Byte) : (s.writeV x b).stack = s.stack := rfl
@[simp] theorem State.writeV_sp (x : Nibble) (b : Byte) : (s.writeV x b).sp = s.sp := rfl
@[simp] theorem State.writeV_dt (x : Nibble) (b : Byte) : (s.writeV x b).dt = s.dt := rfl
@[simp] theorem State.writeV_st (x : Nibble) (b : Byte) : (s.writeV x b).st = s.st := rfl
@[simp] theorem State.writeV_disp (x : Nibble) (b : Byte) : (s.writeV x b).disp = s.disp := rfl
@[simp] theorem State.writeV_keys (x : Nibble) (b : Byte) : (s.writeV x b).keys = s.keys := rfl
@[simp] theorem State.writeV_mode (x : Nibble) (b : Byte) : (s.writeV x b).mode = s.mode := rfl
@[simp] theorem State.writeV_waitReg (x : Nibble) (b : Byte) : (s.writeV x b).waitReg = s.waitReg := rfl
@[simp] theorem State.writeV_faultCause (x : Nibble) (b : Byte) : (s.writeV x b).faultCause = s.faultCause := rfl
@[simp] theorem State.writeV_out (x : Nibble) (b : Byte) : (s.writeV x b).out = s.out := rfl
@[simp] theorem State.writeV_phase (x : Nibble) (b : Byte) : (s.writeV x b).phase = s.phase := rfl
@[simp] theorem State.writeV_draws (x : Nibble) (b : Byte) : (s.writeV x b).draws = s.draws := rfl
@[simp] theorem State.writeV_frameNo (x : Nibble) (b : Byte) : (s.writeV x b).frameNo = s.frameNo := rfl
@[simp] theorem State.writeV_inputs (x : Nibble) (b : Byte) : (s.writeV x b).inputs = s.inputs := rfl
@[simp] theorem State.writeV_params (x : Nibble) (b : Byte) : (s.writeV x b).params = s.params := rfl

@[simp] theorem State.writeI_mem (w : Word) : (s.writeI w).mem = s.mem := rfl
@[simp] theorem State.writeI_v (w : Word) : (s.writeI w).v = s.v := rfl
@[simp] theorem State.writeI_i (w : Word) : (s.writeI w).i = w := rfl
@[simp] theorem State.writeI_pc (w : Word) : (s.writeI w).pc = s.pc := rfl
@[simp] theorem State.writeI_stack (w : Word) : (s.writeI w).stack = s.stack := rfl
@[simp] theorem State.writeI_sp (w : Word) : (s.writeI w).sp = s.sp := rfl
@[simp] theorem State.writeI_dt (w : Word) : (s.writeI w).dt = s.dt := rfl
@[simp] theorem State.writeI_st (w : Word) : (s.writeI w).st = s.st := rfl
@[simp] theorem State.writeI_disp (w : Word) : (s.writeI w).disp = s.disp := rfl
@[simp] theorem State.writeI_keys (w : Word) : (s.writeI w).keys = s.keys := rfl
@[simp] theorem State.writeI_mode (w : Word) : (s.writeI w).mode = s.mode := rfl
@[simp] theorem State.writeI_waitReg (w : Word) : (s.writeI w).waitReg = s.waitReg := rfl
@[simp] theorem State.writeI_faultCause (w : Word) : (s.writeI w).faultCause = s.faultCause := rfl
@[simp] theorem State.writeI_out (w : Word) : (s.writeI w).out = s.out := rfl
@[simp] theorem State.writeI_phase (w : Word) : (s.writeI w).phase = s.phase := rfl
@[simp] theorem State.writeI_draws (w : Word) : (s.writeI w).draws = s.draws := rfl
@[simp] theorem State.writeI_frameNo (w : Word) : (s.writeI w).frameNo = s.frameNo := rfl
@[simp] theorem State.writeI_inputs (w : Word) : (s.writeI w).inputs = s.inputs := rfl
@[simp] theorem State.writeI_params (w : Word) : (s.writeI w).params = s.params := rfl

@[simp] theorem State.writePc_mem (w : Word) : (s.writePc w).mem = s.mem := rfl
@[simp] theorem State.writePc_v (w : Word) : (s.writePc w).v = s.v := rfl
@[simp] theorem State.writePc_i (w : Word) : (s.writePc w).i = s.i := rfl
@[simp] theorem State.writePc_pc (w : Word) : (s.writePc w).pc = w := rfl
@[simp] theorem State.writePc_stack (w : Word) : (s.writePc w).stack = s.stack := rfl
@[simp] theorem State.writePc_sp (w : Word) : (s.writePc w).sp = s.sp := rfl
@[simp] theorem State.writePc_dt (w : Word) : (s.writePc w).dt = s.dt := rfl
@[simp] theorem State.writePc_st (w : Word) : (s.writePc w).st = s.st := rfl
@[simp] theorem State.writePc_disp (w : Word) : (s.writePc w).disp = s.disp := rfl
@[simp] theorem State.writePc_keys (w : Word) : (s.writePc w).keys = s.keys := rfl
@[simp] theorem State.writePc_mode (w : Word) : (s.writePc w).mode = s.mode := rfl
@[simp] theorem State.writePc_waitReg (w : Word) : (s.writePc w).waitReg = s.waitReg := rfl
@[simp] theorem State.writePc_faultCause (w : Word) : (s.writePc w).faultCause = s.faultCause := rfl
@[simp] theorem State.writePc_out (w : Word) : (s.writePc w).out = s.out := rfl
@[simp] theorem State.writePc_phase (w : Word) : (s.writePc w).phase = s.phase := rfl
@[simp] theorem State.writePc_draws (w : Word) : (s.writePc w).draws = s.draws := rfl
@[simp] theorem State.writePc_frameNo (w : Word) : (s.writePc w).frameNo = s.frameNo := rfl
@[simp] theorem State.writePc_inputs (w : Word) : (s.writePc w).inputs = s.inputs := rfl
@[simp] theorem State.writePc_params (w : Word) : (s.writePc w).params = s.params := rfl

@[simp] theorem State.advance_mem : (s.advance).mem = s.mem := rfl
@[simp] theorem State.advance_v : (s.advance).v = s.v := rfl
@[simp] theorem State.advance_i : (s.advance).i = s.i := rfl
@[simp] theorem State.advance_pc : (s.advance).pc = s.pc + 2#16 := rfl
@[simp] theorem State.advance_stack : (s.advance).stack = s.stack := rfl
@[simp] theorem State.advance_sp : (s.advance).sp = s.sp := rfl
@[simp] theorem State.advance_dt : (s.advance).dt = s.dt := rfl
@[simp] theorem State.advance_st : (s.advance).st = s.st := rfl
@[simp] theorem State.advance_disp : (s.advance).disp = s.disp := rfl
@[simp] theorem State.advance_keys : (s.advance).keys = s.keys := rfl
@[simp] theorem State.advance_mode : (s.advance).mode = s.mode := rfl
@[simp] theorem State.advance_waitReg : (s.advance).waitReg = s.waitReg := rfl
@[simp] theorem State.advance_faultCause : (s.advance).faultCause = s.faultCause := rfl
@[simp] theorem State.advance_out : (s.advance).out = s.out := rfl
@[simp] theorem State.advance_phase : (s.advance).phase = s.phase := rfl
@[simp] theorem State.advance_draws : (s.advance).draws = s.draws := rfl
@[simp] theorem State.advance_frameNo : (s.advance).frameNo = s.frameNo := rfl
@[simp] theorem State.advance_inputs : (s.advance).inputs = s.inputs := rfl
@[simp] theorem State.advance_params : (s.advance).params = s.params := rfl

@[simp] theorem State.writeDt_mem (b : Byte) : (s.writeDt b).mem = s.mem := rfl
@[simp] theorem State.writeDt_v (b : Byte) : (s.writeDt b).v = s.v := rfl
@[simp] theorem State.writeDt_i (b : Byte) : (s.writeDt b).i = s.i := rfl
@[simp] theorem State.writeDt_pc (b : Byte) : (s.writeDt b).pc = s.pc := rfl
@[simp] theorem State.writeDt_stack (b : Byte) : (s.writeDt b).stack = s.stack := rfl
@[simp] theorem State.writeDt_sp (b : Byte) : (s.writeDt b).sp = s.sp := rfl
@[simp] theorem State.writeDt_dt (b : Byte) : (s.writeDt b).dt = b := rfl
@[simp] theorem State.writeDt_st (b : Byte) : (s.writeDt b).st = s.st := rfl
@[simp] theorem State.writeDt_disp (b : Byte) : (s.writeDt b).disp = s.disp := rfl
@[simp] theorem State.writeDt_keys (b : Byte) : (s.writeDt b).keys = s.keys := rfl
@[simp] theorem State.writeDt_mode (b : Byte) : (s.writeDt b).mode = s.mode := rfl
@[simp] theorem State.writeDt_waitReg (b : Byte) : (s.writeDt b).waitReg = s.waitReg := rfl
@[simp] theorem State.writeDt_faultCause (b : Byte) : (s.writeDt b).faultCause = s.faultCause := rfl
@[simp] theorem State.writeDt_out (b : Byte) : (s.writeDt b).out = s.out := rfl
@[simp] theorem State.writeDt_phase (b : Byte) : (s.writeDt b).phase = s.phase := rfl
@[simp] theorem State.writeDt_draws (b : Byte) : (s.writeDt b).draws = s.draws := rfl
@[simp] theorem State.writeDt_frameNo (b : Byte) : (s.writeDt b).frameNo = s.frameNo := rfl
@[simp] theorem State.writeDt_inputs (b : Byte) : (s.writeDt b).inputs = s.inputs := rfl
@[simp] theorem State.writeDt_params (b : Byte) : (s.writeDt b).params = s.params := rfl

@[simp] theorem State.writeSt_mem (b : Byte) : (s.writeSt b).mem = s.mem := rfl
@[simp] theorem State.writeSt_v (b : Byte) : (s.writeSt b).v = s.v := rfl
@[simp] theorem State.writeSt_i (b : Byte) : (s.writeSt b).i = s.i := rfl
@[simp] theorem State.writeSt_pc (b : Byte) : (s.writeSt b).pc = s.pc := rfl
@[simp] theorem State.writeSt_stack (b : Byte) : (s.writeSt b).stack = s.stack := rfl
@[simp] theorem State.writeSt_sp (b : Byte) : (s.writeSt b).sp = s.sp := rfl
@[simp] theorem State.writeSt_dt (b : Byte) : (s.writeSt b).dt = s.dt := rfl
@[simp] theorem State.writeSt_st (b : Byte) : (s.writeSt b).st = b := rfl
@[simp] theorem State.writeSt_disp (b : Byte) : (s.writeSt b).disp = s.disp := rfl
@[simp] theorem State.writeSt_keys (b : Byte) : (s.writeSt b).keys = s.keys := rfl
@[simp] theorem State.writeSt_mode (b : Byte) : (s.writeSt b).mode = s.mode := rfl
@[simp] theorem State.writeSt_waitReg (b : Byte) : (s.writeSt b).waitReg = s.waitReg := rfl
@[simp] theorem State.writeSt_faultCause (b : Byte) : (s.writeSt b).faultCause = s.faultCause := rfl
@[simp] theorem State.writeSt_out (b : Byte) : (s.writeSt b).out = s.out := rfl
@[simp] theorem State.writeSt_phase (b : Byte) : (s.writeSt b).phase = s.phase := rfl
@[simp] theorem State.writeSt_draws (b : Byte) : (s.writeSt b).draws = s.draws := rfl
@[simp] theorem State.writeSt_frameNo (b : Byte) : (s.writeSt b).frameNo = s.frameNo := rfl
@[simp] theorem State.writeSt_inputs (b : Byte) : (s.writeSt b).inputs = s.inputs := rfl
@[simp] theorem State.writeSt_params (b : Byte) : (s.writeSt b).params = s.params := rfl

@[simp] theorem State.writeMem_mem (m : Memory) : (s.writeMem m).mem = m := rfl
@[simp] theorem State.writeMem_v (m : Memory) : (s.writeMem m).v = s.v := rfl
@[simp] theorem State.writeMem_i (m : Memory) : (s.writeMem m).i = s.i := rfl
@[simp] theorem State.writeMem_pc (m : Memory) : (s.writeMem m).pc = s.pc := rfl
@[simp] theorem State.writeMem_stack (m : Memory) : (s.writeMem m).stack = s.stack := rfl
@[simp] theorem State.writeMem_sp (m : Memory) : (s.writeMem m).sp = s.sp := rfl
@[simp] theorem State.writeMem_dt (m : Memory) : (s.writeMem m).dt = s.dt := rfl
@[simp] theorem State.writeMem_st (m : Memory) : (s.writeMem m).st = s.st := rfl
@[simp] theorem State.writeMem_disp (m : Memory) : (s.writeMem m).disp = s.disp := rfl
@[simp] theorem State.writeMem_keys (m : Memory) : (s.writeMem m).keys = s.keys := rfl
@[simp] theorem State.writeMem_mode (m : Memory) : (s.writeMem m).mode = s.mode := rfl
@[simp] theorem State.writeMem_waitReg (m : Memory) : (s.writeMem m).waitReg = s.waitReg := rfl
@[simp] theorem State.writeMem_faultCause (m : Memory) : (s.writeMem m).faultCause = s.faultCause := rfl
@[simp] theorem State.writeMem_out (m : Memory) : (s.writeMem m).out = s.out := rfl
@[simp] theorem State.writeMem_phase (m : Memory) : (s.writeMem m).phase = s.phase := rfl
@[simp] theorem State.writeMem_draws (m : Memory) : (s.writeMem m).draws = s.draws := rfl
@[simp] theorem State.writeMem_frameNo (m : Memory) : (s.writeMem m).frameNo = s.frameNo := rfl
@[simp] theorem State.writeMem_inputs (m : Memory) : (s.writeMem m).inputs = s.inputs := rfl
@[simp] theorem State.writeMem_params (m : Memory) : (s.writeMem m).params = s.params := rfl

@[simp] theorem State.writeRegs_mem (r : Regs) : (s.writeRegs r).mem = s.mem := rfl
@[simp] theorem State.writeRegs_v (r : Regs) : (s.writeRegs r).v = r := rfl
@[simp] theorem State.writeRegs_i (r : Regs) : (s.writeRegs r).i = s.i := rfl
@[simp] theorem State.writeRegs_pc (r : Regs) : (s.writeRegs r).pc = s.pc := rfl
@[simp] theorem State.writeRegs_stack (r : Regs) : (s.writeRegs r).stack = s.stack := rfl
@[simp] theorem State.writeRegs_sp (r : Regs) : (s.writeRegs r).sp = s.sp := rfl
@[simp] theorem State.writeRegs_dt (r : Regs) : (s.writeRegs r).dt = s.dt := rfl
@[simp] theorem State.writeRegs_st (r : Regs) : (s.writeRegs r).st = s.st := rfl
@[simp] theorem State.writeRegs_disp (r : Regs) : (s.writeRegs r).disp = s.disp := rfl
@[simp] theorem State.writeRegs_keys (r : Regs) : (s.writeRegs r).keys = s.keys := rfl
@[simp] theorem State.writeRegs_mode (r : Regs) : (s.writeRegs r).mode = s.mode := rfl
@[simp] theorem State.writeRegs_waitReg (r : Regs) : (s.writeRegs r).waitReg = s.waitReg := rfl
@[simp] theorem State.writeRegs_faultCause (r : Regs) : (s.writeRegs r).faultCause = s.faultCause := rfl
@[simp] theorem State.writeRegs_out (r : Regs) : (s.writeRegs r).out = s.out := rfl
@[simp] theorem State.writeRegs_phase (r : Regs) : (s.writeRegs r).phase = s.phase := rfl
@[simp] theorem State.writeRegs_draws (r : Regs) : (s.writeRegs r).draws = s.draws := rfl
@[simp] theorem State.writeRegs_frameNo (r : Regs) : (s.writeRegs r).frameNo = s.frameNo := rfl
@[simp] theorem State.writeRegs_inputs (r : Regs) : (s.writeRegs r).inputs = s.inputs := rfl
@[simp] theorem State.writeRegs_params (r : Regs) : (s.writeRegs r).params = s.params := rfl

@[simp] theorem State.writeDisp_mem (d : Display) : (s.writeDisp d).mem = s.mem := rfl
@[simp] theorem State.writeDisp_v (d : Display) : (s.writeDisp d).v = s.v := rfl
@[simp] theorem State.writeDisp_i (d : Display) : (s.writeDisp d).i = s.i := rfl
@[simp] theorem State.writeDisp_pc (d : Display) : (s.writeDisp d).pc = s.pc := rfl
@[simp] theorem State.writeDisp_stack (d : Display) : (s.writeDisp d).stack = s.stack := rfl
@[simp] theorem State.writeDisp_sp (d : Display) : (s.writeDisp d).sp = s.sp := rfl
@[simp] theorem State.writeDisp_dt (d : Display) : (s.writeDisp d).dt = s.dt := rfl
@[simp] theorem State.writeDisp_st (d : Display) : (s.writeDisp d).st = s.st := rfl
@[simp] theorem State.writeDisp_disp (d : Display) : (s.writeDisp d).disp = d := rfl
@[simp] theorem State.writeDisp_keys (d : Display) : (s.writeDisp d).keys = s.keys := rfl
@[simp] theorem State.writeDisp_mode (d : Display) : (s.writeDisp d).mode = s.mode := rfl
@[simp] theorem State.writeDisp_waitReg (d : Display) : (s.writeDisp d).waitReg = s.waitReg := rfl
@[simp] theorem State.writeDisp_faultCause (d : Display) : (s.writeDisp d).faultCause = s.faultCause := rfl
@[simp] theorem State.writeDisp_out (d : Display) : (s.writeDisp d).out = s.out := rfl
@[simp] theorem State.writeDisp_phase (d : Display) : (s.writeDisp d).phase = s.phase := rfl
@[simp] theorem State.writeDisp_draws (d : Display) : (s.writeDisp d).draws = s.draws := rfl
@[simp] theorem State.writeDisp_frameNo (d : Display) : (s.writeDisp d).frameNo = s.frameNo := rfl
@[simp] theorem State.writeDisp_inputs (d : Display) : (s.writeDisp d).inputs = s.inputs := rfl
@[simp] theorem State.writeDisp_params (d : Display) : (s.writeDisp d).params = s.params := rfl

@[simp] theorem State.countDraw_mem : (s.countDraw).mem = s.mem := rfl
@[simp] theorem State.countDraw_v : (s.countDraw).v = s.v := rfl
@[simp] theorem State.countDraw_i : (s.countDraw).i = s.i := rfl
@[simp] theorem State.countDraw_pc : (s.countDraw).pc = s.pc := rfl
@[simp] theorem State.countDraw_stack : (s.countDraw).stack = s.stack := rfl
@[simp] theorem State.countDraw_sp : (s.countDraw).sp = s.sp := rfl
@[simp] theorem State.countDraw_dt : (s.countDraw).dt = s.dt := rfl
@[simp] theorem State.countDraw_st : (s.countDraw).st = s.st := rfl
@[simp] theorem State.countDraw_disp : (s.countDraw).disp = s.disp := rfl
@[simp] theorem State.countDraw_keys : (s.countDraw).keys = s.keys := rfl
@[simp] theorem State.countDraw_mode : (s.countDraw).mode = s.mode := rfl
@[simp] theorem State.countDraw_waitReg : (s.countDraw).waitReg = s.waitReg := rfl
@[simp] theorem State.countDraw_faultCause : (s.countDraw).faultCause = s.faultCause := rfl
@[simp] theorem State.countDraw_out : (s.countDraw).out = s.out := rfl
@[simp] theorem State.countDraw_phase : (s.countDraw).phase = s.phase := rfl
@[simp] theorem State.countDraw_draws : (s.countDraw).draws = s.draws + 1 := rfl
@[simp] theorem State.countDraw_frameNo : (s.countDraw).frameNo = s.frameNo := rfl
@[simp] theorem State.countDraw_inputs : (s.countDraw).inputs = s.inputs := rfl
@[simp] theorem State.countDraw_params : (s.countDraw).params = s.params := rfl

@[simp] theorem State.raise_mem (f : FaultCause) : (s.raise f).mem = s.mem := rfl
@[simp] theorem State.raise_v (f : FaultCause) : (s.raise f).v = s.v := rfl
@[simp] theorem State.raise_i (f : FaultCause) : (s.raise f).i = s.i := rfl
@[simp] theorem State.raise_pc (f : FaultCause) : (s.raise f).pc = s.pc := rfl
@[simp] theorem State.raise_stack (f : FaultCause) : (s.raise f).stack = s.stack := rfl
@[simp] theorem State.raise_sp (f : FaultCause) : (s.raise f).sp = s.sp := rfl
@[simp] theorem State.raise_dt (f : FaultCause) : (s.raise f).dt = s.dt := rfl
@[simp] theorem State.raise_st (f : FaultCause) : (s.raise f).st = s.st := rfl
@[simp] theorem State.raise_disp (f : FaultCause) : (s.raise f).disp = s.disp := rfl
@[simp] theorem State.raise_keys (f : FaultCause) : (s.raise f).keys = s.keys := rfl
@[simp] theorem State.raise_mode (f : FaultCause) : (s.raise f).mode = .faulted := rfl
@[simp] theorem State.raise_waitReg (f : FaultCause) : (s.raise f).waitReg = s.waitReg := rfl
@[simp] theorem State.raise_faultCause (f : FaultCause) : (s.raise f).faultCause = f := rfl
@[simp] theorem State.raise_out (f : FaultCause) : (s.raise f).out = s.out := rfl
@[simp] theorem State.raise_phase (f : FaultCause) : (s.raise f).phase = s.phase := rfl
@[simp] theorem State.raise_draws (f : FaultCause) : (s.raise f).draws = s.draws := rfl
@[simp] theorem State.raise_frameNo (f : FaultCause) : (s.raise f).frameNo = s.frameNo := rfl
@[simp] theorem State.raise_inputs (f : FaultCause) : (s.raise f).inputs = s.inputs := rfl
@[simp] theorem State.raise_params (f : FaultCause) : (s.raise f).params = s.params := rfl

@[simp] theorem State.enterWait_mem (x : Nibble) : (s.enterWait x).mem = s.mem := rfl
@[simp] theorem State.enterWait_v (x : Nibble) : (s.enterWait x).v = s.v := rfl
@[simp] theorem State.enterWait_i (x : Nibble) : (s.enterWait x).i = s.i := rfl
@[simp] theorem State.enterWait_pc (x : Nibble) : (s.enterWait x).pc = s.pc := rfl
@[simp] theorem State.enterWait_stack (x : Nibble) : (s.enterWait x).stack = s.stack := rfl
@[simp] theorem State.enterWait_sp (x : Nibble) : (s.enterWait x).sp = s.sp := rfl
@[simp] theorem State.enterWait_dt (x : Nibble) : (s.enterWait x).dt = s.dt := rfl
@[simp] theorem State.enterWait_st (x : Nibble) : (s.enterWait x).st = s.st := rfl
@[simp] theorem State.enterWait_disp (x : Nibble) : (s.enterWait x).disp = s.disp := rfl
@[simp] theorem State.enterWait_keys (x : Nibble) : (s.enterWait x).keys = s.keys := rfl
@[simp] theorem State.enterWait_mode (x : Nibble) : (s.enterWait x).mode = .awaitingKey := rfl
@[simp] theorem State.enterWait_waitReg (x : Nibble) : (s.enterWait x).waitReg = x := rfl
@[simp] theorem State.enterWait_faultCause (x : Nibble) : (s.enterWait x).faultCause = s.faultCause := rfl
@[simp] theorem State.enterWait_out (x : Nibble) : (s.enterWait x).out = s.out := rfl
@[simp] theorem State.enterWait_phase (x : Nibble) : (s.enterWait x).phase = s.phase := rfl
@[simp] theorem State.enterWait_draws (x : Nibble) : (s.enterWait x).draws = s.draws := rfl
@[simp] theorem State.enterWait_frameNo (x : Nibble) : (s.enterWait x).frameNo = s.frameNo := rfl
@[simp] theorem State.enterWait_inputs (x : Nibble) : (s.enterWait x).inputs = s.inputs := rfl
@[simp] theorem State.enterWait_params (x : Nibble) : (s.enterWait x).params = s.params := rfl

@[simp] theorem State.resume_mem : (s.resume).mem = s.mem := rfl
@[simp] theorem State.resume_v : (s.resume).v = s.v := rfl
@[simp] theorem State.resume_i : (s.resume).i = s.i := rfl
@[simp] theorem State.resume_pc : (s.resume).pc = s.pc := rfl
@[simp] theorem State.resume_stack : (s.resume).stack = s.stack := rfl
@[simp] theorem State.resume_sp : (s.resume).sp = s.sp := rfl
@[simp] theorem State.resume_dt : (s.resume).dt = s.dt := rfl
@[simp] theorem State.resume_st : (s.resume).st = s.st := rfl
@[simp] theorem State.resume_disp : (s.resume).disp = s.disp := rfl
@[simp] theorem State.resume_keys : (s.resume).keys = s.keys := rfl
@[simp] theorem State.resume_mode : (s.resume).mode = .running := rfl
@[simp] theorem State.resume_waitReg : (s.resume).waitReg = s.waitReg := rfl
@[simp] theorem State.resume_faultCause : (s.resume).faultCause = s.faultCause := rfl
@[simp] theorem State.resume_out : (s.resume).out = s.out := rfl
@[simp] theorem State.resume_phase : (s.resume).phase = s.phase := rfl
@[simp] theorem State.resume_draws : (s.resume).draws = s.draws := rfl
@[simp] theorem State.resume_frameNo : (s.resume).frameNo = s.frameNo := rfl
@[simp] theorem State.resume_inputs : (s.resume).inputs = s.inputs := rfl
@[simp] theorem State.resume_params : (s.resume).params = s.params := rfl

@[simp] theorem State.takeInput_mem : (s.takeInput).mem = s.mem := rfl
@[simp] theorem State.takeInput_v : (s.takeInput).v = s.v := rfl
@[simp] theorem State.takeInput_i : (s.takeInput).i = s.i := rfl
@[simp] theorem State.takeInput_pc : (s.takeInput).pc = s.pc := rfl
@[simp] theorem State.takeInput_stack : (s.takeInput).stack = s.stack := rfl
@[simp] theorem State.takeInput_sp : (s.takeInput).sp = s.sp := rfl
@[simp] theorem State.takeInput_dt : (s.takeInput).dt = s.dt := rfl
@[simp] theorem State.takeInput_st : (s.takeInput).st = s.st := rfl
@[simp] theorem State.takeInput_disp : (s.takeInput).disp = s.disp := rfl
@[simp] theorem State.takeInput_keys : (s.takeInput).keys = s.keys := rfl
@[simp] theorem State.takeInput_mode : (s.takeInput).mode = s.mode := rfl
@[simp] theorem State.takeInput_waitReg : (s.takeInput).waitReg = s.waitReg := rfl
@[simp] theorem State.takeInput_faultCause : (s.takeInput).faultCause = s.faultCause := rfl
@[simp] theorem State.takeInput_out : (s.takeInput).out = s.out := rfl
@[simp] theorem State.takeInput_phase : (s.takeInput).phase = s.phase := rfl
@[simp] theorem State.takeInput_draws : (s.takeInput).draws = s.draws := rfl
@[simp] theorem State.takeInput_frameNo : (s.takeInput).frameNo = s.frameNo + 1 := rfl
@[simp] theorem State.takeInput_inputs : (s.takeInput).inputs = s.inputs.tail := rfl
@[simp] theorem State.takeInput_params : (s.takeInput).params = s.params := rfl

@[simp] theorem State.decayTimers_mem : (s.decayTimers).mem = s.mem := rfl
@[simp] theorem State.decayTimers_v : (s.decayTimers).v = s.v := rfl
@[simp] theorem State.decayTimers_i : (s.decayTimers).i = s.i := rfl
@[simp] theorem State.decayTimers_pc : (s.decayTimers).pc = s.pc := rfl
@[simp] theorem State.decayTimers_stack : (s.decayTimers).stack = s.stack := rfl
@[simp] theorem State.decayTimers_sp : (s.decayTimers).sp = s.sp := rfl
@[simp] theorem State.decayTimers_dt : (s.decayTimers).dt = decay s.dt := rfl
@[simp] theorem State.decayTimers_st : (s.decayTimers).st = decay s.st := rfl
@[simp] theorem State.decayTimers_disp : (s.decayTimers).disp = s.disp := rfl
@[simp] theorem State.decayTimers_keys : (s.decayTimers).keys = s.keys := rfl
@[simp] theorem State.decayTimers_mode : (s.decayTimers).mode = s.mode := rfl
@[simp] theorem State.decayTimers_waitReg : (s.decayTimers).waitReg = s.waitReg := rfl
@[simp] theorem State.decayTimers_faultCause : (s.decayTimers).faultCause = s.faultCause := rfl
@[simp] theorem State.decayTimers_out : (s.decayTimers).out = s.out := rfl
@[simp] theorem State.decayTimers_phase : (s.decayTimers).phase = s.phase := rfl
@[simp] theorem State.decayTimers_draws : (s.decayTimers).draws = s.draws := rfl
@[simp] theorem State.decayTimers_frameNo : (s.decayTimers).frameNo = s.frameNo := rfl
@[simp] theorem State.decayTimers_inputs : (s.decayTimers).inputs = s.inputs := rfl
@[simp] theorem State.decayTimers_params : (s.decayTimers).params = s.params := rfl

@[simp] theorem State.present_mem : (s.present).mem = s.mem := rfl
@[simp] theorem State.present_v : (s.present).v = s.v := rfl
@[simp] theorem State.present_i : (s.present).i = s.i := rfl
@[simp] theorem State.present_pc : (s.present).pc = s.pc := rfl
@[simp] theorem State.present_stack : (s.present).stack = s.stack := rfl
@[simp] theorem State.present_sp : (s.present).sp = s.sp := rfl
@[simp] theorem State.present_dt : (s.present).dt = s.dt := rfl
@[simp] theorem State.present_st : (s.present).st = s.st := rfl
@[simp] theorem State.present_disp : (s.present).disp = s.disp := rfl
@[simp] theorem State.present_keys : (s.present).keys = s.keys := rfl
@[simp] theorem State.present_mode : (s.present).mode = s.mode := rfl
@[simp] theorem State.present_waitReg : (s.present).waitReg = s.waitReg := rfl
@[simp] theorem State.present_faultCause : (s.present).faultCause = s.faultCause := rfl
@[simp] theorem State.present_out : (s.present).out = s.outputs := rfl
@[simp] theorem State.present_phase : (s.present).phase = s.phase := rfl
@[simp] theorem State.present_draws : (s.present).draws = s.draws := rfl
@[simp] theorem State.present_frameNo : (s.present).frameNo = s.frameNo := rfl
@[simp] theorem State.present_inputs : (s.present).inputs = s.inputs := rfl
@[simp] theorem State.present_params : (s.present).params = s.params := rfl

@[simp] theorem State.skipIf_mem (c : Bool) : (s.skipIf c).mem = s.mem := by cases c <;> rfl
@[simp] theorem State.skipIf_v (c : Bool) : (s.skipIf c).v = s.v := by cases c <;> rfl
@[simp] theorem State.skipIf_i (c : Bool) : (s.skipIf c).i = s.i := by cases c <;> rfl
@[simp] theorem State.skipIf_stack (c : Bool) : (s.skipIf c).stack = s.stack := by cases c <;> rfl
@[simp] theorem State.skipIf_sp (c : Bool) : (s.skipIf c).sp = s.sp := by cases c <;> rfl
@[simp] theorem State.skipIf_dt (c : Bool) : (s.skipIf c).dt = s.dt := by cases c <;> rfl
@[simp] theorem State.skipIf_st (c : Bool) : (s.skipIf c).st = s.st := by cases c <;> rfl
@[simp] theorem State.skipIf_disp (c : Bool) : (s.skipIf c).disp = s.disp := by cases c <;> rfl
@[simp] theorem State.skipIf_keys (c : Bool) : (s.skipIf c).keys = s.keys := by cases c <;> rfl
@[simp] theorem State.skipIf_mode (c : Bool) : (s.skipIf c).mode = s.mode := by cases c <;> rfl
@[simp] theorem State.skipIf_waitReg (c : Bool) : (s.skipIf c).waitReg = s.waitReg := by cases c <;> rfl
@[simp] theorem State.skipIf_faultCause (c : Bool) : (s.skipIf c).faultCause = s.faultCause := by cases c <;> rfl
@[simp] theorem State.skipIf_out (c : Bool) : (s.skipIf c).out = s.out := by cases c <;> rfl
@[simp] theorem State.skipIf_phase (c : Bool) : (s.skipIf c).phase = s.phase := by cases c <;> rfl
@[simp] theorem State.skipIf_draws (c : Bool) : (s.skipIf c).draws = s.draws := by cases c <;> rfl
@[simp] theorem State.skipIf_frameNo (c : Bool) : (s.skipIf c).frameNo = s.frameNo := by cases c <;> rfl
@[simp] theorem State.skipIf_inputs (c : Bool) : (s.skipIf c).inputs = s.inputs := by cases c <;> rfl
@[simp] theorem State.skipIf_params (c : Bool) : (s.skipIf c).params = s.params := by cases c <;> rfl
@[simp] theorem State.skipIf_pc (c : Bool) : (s.skipIf c).pc = if c then s.pc + 4#16 else s.pc + 2#16 := by cases c <;> rfl

@[simp] theorem State.togglePause_mem : s.togglePause.mem = s.mem := by unfold State.togglePause; split <;> rfl
@[simp] theorem State.togglePause_v : s.togglePause.v = s.v := by unfold State.togglePause; split <;> rfl
@[simp] theorem State.togglePause_i : s.togglePause.i = s.i := by unfold State.togglePause; split <;> rfl
@[simp] theorem State.togglePause_pc : s.togglePause.pc = s.pc := by unfold State.togglePause; split <;> rfl
@[simp] theorem State.togglePause_stack : s.togglePause.stack = s.stack := by unfold State.togglePause; split <;> rfl
@[simp] theorem State.togglePause_sp : s.togglePause.sp = s.sp := by unfold State.togglePause; split <;> rfl
@[simp] theorem State.togglePause_dt : s.togglePause.dt = s.dt := by unfold State.togglePause; split <;> rfl
@[simp] theorem State.togglePause_st : s.togglePause.st = s.st := by unfold State.togglePause; split <;> rfl
@[simp] theorem State.togglePause_disp : s.togglePause.disp = s.disp := by unfold State.togglePause; split <;> rfl
@[simp] theorem State.togglePause_keys : s.togglePause.keys = s.keys := by unfold State.togglePause; split <;> rfl
@[simp] theorem State.togglePause_waitReg : s.togglePause.waitReg = s.waitReg := by unfold State.togglePause; split <;> rfl
@[simp] theorem State.togglePause_faultCause : s.togglePause.faultCause = s.faultCause := by unfold State.togglePause; split <;> rfl
@[simp] theorem State.togglePause_out : s.togglePause.out = s.out := by unfold State.togglePause; split <;> rfl
@[simp] theorem State.togglePause_phase : s.togglePause.phase = s.phase := by unfold State.togglePause; split <;> rfl
@[simp] theorem State.togglePause_draws : s.togglePause.draws = s.draws := by unfold State.togglePause; split <;> rfl
@[simp] theorem State.togglePause_frameNo : s.togglePause.frameNo = s.frameNo := by unfold State.togglePause; split <;> rfl
@[simp] theorem State.togglePause_inputs : s.togglePause.inputs = s.inputs := by unfold State.togglePause; split <;> rfl
@[simp] theorem State.togglePause_params : s.togglePause.params = s.params := by unfold State.togglePause; split <;> rfl

@[simp] theorem State.advanceI_mem (x : Nibble) : (s.advanceI x).mem = s.mem := rfl
@[simp] theorem State.advanceI_v (x : Nibble) : (s.advanceI x).v = s.v := rfl
@[simp] theorem State.advanceI_i (x : Nibble) : (s.advanceI x).i = BitVec.ofNat 16 (s.i.toNat + x.toNat + 1) := rfl
@[simp] theorem State.advanceI_pc (x : Nibble) : (s.advanceI x).pc = s.pc := rfl
@[simp] theorem State.advanceI_stack (x : Nibble) : (s.advanceI x).stack = s.stack := rfl
@[simp] theorem State.advanceI_sp (x : Nibble) : (s.advanceI x).sp = s.sp := rfl
@[simp] theorem State.advanceI_dt (x : Nibble) : (s.advanceI x).dt = s.dt := rfl
@[simp] theorem State.advanceI_st (x : Nibble) : (s.advanceI x).st = s.st := rfl
@[simp] theorem State.advanceI_disp (x : Nibble) : (s.advanceI x).disp = s.disp := rfl
@[simp] theorem State.advanceI_keys (x : Nibble) : (s.advanceI x).keys = s.keys := rfl
@[simp] theorem State.advanceI_mode (x : Nibble) : (s.advanceI x).mode = s.mode := rfl
@[simp] theorem State.advanceI_waitReg (x : Nibble) : (s.advanceI x).waitReg = s.waitReg := rfl
@[simp] theorem State.advanceI_faultCause (x : Nibble) : (s.advanceI x).faultCause = s.faultCause := rfl
@[simp] theorem State.advanceI_out (x : Nibble) : (s.advanceI x).out = s.out := rfl
@[simp] theorem State.advanceI_phase (x : Nibble) : (s.advanceI x).phase = s.phase := rfl
@[simp] theorem State.advanceI_draws (x : Nibble) : (s.advanceI x).draws = s.draws := rfl
@[simp] theorem State.advanceI_frameNo (x : Nibble) : (s.advanceI x).frameNo = s.frameNo := rfl
@[simp] theorem State.advanceI_inputs (x : Nibble) : (s.advanceI x).inputs = s.inputs := rfl
@[simp] theorem State.advanceI_params (x : Nibble) : (s.advanceI x).params = s.params := rfl

@[simp] theorem State.writeResultAndFlag_mem (x : Nibble) (r f : Byte) : (s.writeResultAndFlag x r f).mem = s.mem := rfl
@[simp] theorem State.writeResultAndFlag_v (x : Nibble) (r f : Byte) : (s.writeResultAndFlag x r f).v = (s.v.set x.toNat r x.isLt).set 15 f := rfl
@[simp] theorem State.writeResultAndFlag_i (x : Nibble) (r f : Byte) : (s.writeResultAndFlag x r f).i = s.i := rfl
@[simp] theorem State.writeResultAndFlag_pc (x : Nibble) (r f : Byte) : (s.writeResultAndFlag x r f).pc = s.pc := rfl
@[simp] theorem State.writeResultAndFlag_stack (x : Nibble) (r f : Byte) : (s.writeResultAndFlag x r f).stack = s.stack := rfl
@[simp] theorem State.writeResultAndFlag_sp (x : Nibble) (r f : Byte) : (s.writeResultAndFlag x r f).sp = s.sp := rfl
@[simp] theorem State.writeResultAndFlag_dt (x : Nibble) (r f : Byte) : (s.writeResultAndFlag x r f).dt = s.dt := rfl
@[simp] theorem State.writeResultAndFlag_st (x : Nibble) (r f : Byte) : (s.writeResultAndFlag x r f).st = s.st := rfl
@[simp] theorem State.writeResultAndFlag_disp (x : Nibble) (r f : Byte) : (s.writeResultAndFlag x r f).disp = s.disp := rfl
@[simp] theorem State.writeResultAndFlag_keys (x : Nibble) (r f : Byte) : (s.writeResultAndFlag x r f).keys = s.keys := rfl
@[simp] theorem State.writeResultAndFlag_mode (x : Nibble) (r f : Byte) : (s.writeResultAndFlag x r f).mode = s.mode := rfl
@[simp] theorem State.writeResultAndFlag_waitReg (x : Nibble) (r f : Byte) : (s.writeResultAndFlag x r f).waitReg = s.waitReg := rfl
@[simp] theorem State.writeResultAndFlag_faultCause (x : Nibble) (r f : Byte) : (s.writeResultAndFlag x r f).faultCause = s.faultCause := rfl
@[simp] theorem State.writeResultAndFlag_out (x : Nibble) (r f : Byte) : (s.writeResultAndFlag x r f).out = s.out := rfl
@[simp] theorem State.writeResultAndFlag_phase (x : Nibble) (r f : Byte) : (s.writeResultAndFlag x r f).phase = s.phase := rfl
@[simp] theorem State.writeResultAndFlag_draws (x : Nibble) (r f : Byte) : (s.writeResultAndFlag x r f).draws = s.draws := rfl
@[simp] theorem State.writeResultAndFlag_frameNo (x : Nibble) (r f : Byte) : (s.writeResultAndFlag x r f).frameNo = s.frameNo := rfl
@[simp] theorem State.writeResultAndFlag_inputs (x : Nibble) (r f : Byte) : (s.writeResultAndFlag x r f).inputs = s.inputs := rfl
@[simp] theorem State.writeResultAndFlag_params (x : Nibble) (r f : Byte) : (s.writeResultAndFlag x r f).params = s.params := rfl

@[simp] theorem State.randomInto_mem (x : Nibble) (kk b : Byte) : (s.randomInto x kk b).mem = s.mem := rfl
@[simp] theorem State.randomInto_v (x : Nibble) (kk b : Byte) : (s.randomInto x kk b).v = s.v.set x.toNat (b &&& kk) x.isLt := rfl
@[simp] theorem State.randomInto_i (x : Nibble) (kk b : Byte) : (s.randomInto x kk b).i = s.i := rfl
@[simp] theorem State.randomInto_pc (x : Nibble) (kk b : Byte) : (s.randomInto x kk b).pc = s.pc + 2#16 := rfl
@[simp] theorem State.randomInto_stack (x : Nibble) (kk b : Byte) : (s.randomInto x kk b).stack = s.stack := rfl
@[simp] theorem State.randomInto_sp (x : Nibble) (kk b : Byte) : (s.randomInto x kk b).sp = s.sp := rfl
@[simp] theorem State.randomInto_dt (x : Nibble) (kk b : Byte) : (s.randomInto x kk b).dt = s.dt := rfl
@[simp] theorem State.randomInto_st (x : Nibble) (kk b : Byte) : (s.randomInto x kk b).st = s.st := rfl
@[simp] theorem State.randomInto_disp (x : Nibble) (kk b : Byte) : (s.randomInto x kk b).disp = s.disp := rfl
@[simp] theorem State.randomInto_keys (x : Nibble) (kk b : Byte) : (s.randomInto x kk b).keys = s.keys := rfl
@[simp] theorem State.randomInto_mode (x : Nibble) (kk b : Byte) : (s.randomInto x kk b).mode = s.mode := rfl
@[simp] theorem State.randomInto_waitReg (x : Nibble) (kk b : Byte) : (s.randomInto x kk b).waitReg = s.waitReg := rfl
@[simp] theorem State.randomInto_faultCause (x : Nibble) (kk b : Byte) : (s.randomInto x kk b).faultCause = s.faultCause := rfl
@[simp] theorem State.randomInto_out (x : Nibble) (kk b : Byte) : (s.randomInto x kk b).out = s.out := rfl
@[simp] theorem State.randomInto_phase (x : Nibble) (kk b : Byte) : (s.randomInto x kk b).phase = s.phase := rfl
@[simp] theorem State.randomInto_draws (x : Nibble) (kk b : Byte) : (s.randomInto x kk b).draws = s.draws := rfl
@[simp] theorem State.randomInto_frameNo (x : Nibble) (kk b : Byte) : (s.randomInto x kk b).frameNo = s.frameNo := rfl
@[simp] theorem State.randomInto_inputs (x : Nibble) (kk b : Byte) : (s.randomInto x kk b).inputs = s.inputs := rfl
@[simp] theorem State.randomInto_params (x : Nibble) (kk b : Byte) : (s.randomInto x kk b).params = s.params := rfl

@[simp] theorem State.drawSprite_mem (x y : Nibble) (bs : List Byte) : (s.drawSprite x y bs).mem = s.mem := rfl
@[simp] theorem State.drawSprite_i (x y : Nibble) (bs : List Byte) : (s.drawSprite x y bs).i = s.i := rfl
@[simp] theorem State.drawSprite_pc (x y : Nibble) (bs : List Byte) : (s.drawSprite x y bs).pc = s.pc + 2#16 := rfl
@[simp] theorem State.drawSprite_stack (x y : Nibble) (bs : List Byte) : (s.drawSprite x y bs).stack = s.stack := rfl
@[simp] theorem State.drawSprite_sp (x y : Nibble) (bs : List Byte) : (s.drawSprite x y bs).sp = s.sp := rfl
@[simp] theorem State.drawSprite_dt (x y : Nibble) (bs : List Byte) : (s.drawSprite x y bs).dt = s.dt := rfl
@[simp] theorem State.drawSprite_st (x y : Nibble) (bs : List Byte) : (s.drawSprite x y bs).st = s.st := rfl
@[simp] theorem State.drawSprite_keys (x y : Nibble) (bs : List Byte) : (s.drawSprite x y bs).keys = s.keys := rfl
@[simp] theorem State.drawSprite_mode (x y : Nibble) (bs : List Byte) : (s.drawSprite x y bs).mode = s.mode := rfl
@[simp] theorem State.drawSprite_waitReg (x y : Nibble) (bs : List Byte) : (s.drawSprite x y bs).waitReg = s.waitReg := rfl
@[simp] theorem State.drawSprite_faultCause (x y : Nibble) (bs : List Byte) : (s.drawSprite x y bs).faultCause = s.faultCause := rfl
@[simp] theorem State.drawSprite_out (x y : Nibble) (bs : List Byte) : (s.drawSprite x y bs).out = s.out := rfl
@[simp] theorem State.drawSprite_phase (x y : Nibble) (bs : List Byte) : (s.drawSprite x y bs).phase = s.phase := rfl
@[simp] theorem State.drawSprite_draws (x y : Nibble) (bs : List Byte) : (s.drawSprite x y bs).draws = s.draws := rfl
@[simp] theorem State.drawSprite_frameNo (x y : Nibble) (bs : List Byte) : (s.drawSprite x y bs).frameNo = s.frameNo := rfl
@[simp] theorem State.drawSprite_inputs (x y : Nibble) (bs : List Byte) : (s.drawSprite x y bs).inputs = s.inputs := rfl
@[simp] theorem State.drawSprite_params (x y : Nibble) (bs : List Byte) : (s.drawSprite x y bs).params = s.params := rfl

@[simp] theorem State.endFrame_mem : (s.endFrame).mem = s.mem := rfl
@[simp] theorem State.endFrame_v : (s.endFrame).v = s.v := rfl
@[simp] theorem State.endFrame_i : (s.endFrame).i = s.i := rfl
@[simp] theorem State.endFrame_pc : (s.endFrame).pc = s.pc := rfl
@[simp] theorem State.endFrame_stack : (s.endFrame).stack = s.stack := rfl
@[simp] theorem State.endFrame_sp : (s.endFrame).sp = s.sp := rfl
@[simp] theorem State.endFrame_dt : (s.endFrame).dt = decay s.dt := rfl
@[simp] theorem State.endFrame_st : (s.endFrame).st = decay s.st := rfl
@[simp] theorem State.endFrame_disp : (s.endFrame).disp = s.disp := rfl
@[simp] theorem State.endFrame_keys : (s.endFrame).keys = s.keys := rfl
@[simp] theorem State.endFrame_mode : (s.endFrame).mode = s.mode := rfl
@[simp] theorem State.endFrame_waitReg : (s.endFrame).waitReg = s.waitReg := rfl
@[simp] theorem State.endFrame_faultCause : (s.endFrame).faultCause = s.faultCause := rfl
@[simp] theorem State.endFrame_out : (s.endFrame).out = s.decayTimers.outputs := rfl
@[simp] theorem State.endFrame_phase : (s.endFrame).phase = .frameStart := rfl
@[simp] theorem State.endFrame_draws : (s.endFrame).draws = s.draws := rfl
@[simp] theorem State.endFrame_frameNo : (s.endFrame).frameNo = s.frameNo := rfl
@[simp] theorem State.endFrame_inputs : (s.endFrame).inputs = s.inputs := rfl
@[simp] theorem State.endFrame_params : (s.endFrame).params = s.params := rfl

@[simp] theorem State.beginFrame_keys (inp : FrameInput) : (s.beginFrame inp).keys = inp.keysIn := rfl
@[simp] theorem State.beginFrame_phase (inp : FrameInput) : (s.beginFrame inp).phase = .cycles s.params.cyclesPerFrame := rfl

@[simp] theorem State.orRaise_some (f : FaultCause) (t : State) : s.orRaise f (some t) = t := rfl
@[simp] theorem State.orRaise_none (f : FaultCause) : s.orRaise f none = s.raise f := rfl

end Sys2Proof.Machine
end

