-- ==== Sys2Proof/Laws/Memory.lean ====
section
/-! SUPPORT. Memory: read after write, the canonical form is kept, and equal contents are equal lists. -/

namespace Sys2Proof.Machine

theorem Memory.wfFrom_mono {lo hi : Nat} (h : lo ≤ hi) : ∀ {m : Memory}, Memory.wfFrom hi m = true → Memory.wfFrom lo m = true
  | [], _ => rfl
  | (a, v) :: m, hm => by
    simp only [Memory.wfFrom, Bool.and_eq_true, decide_eq_true_eq] at hm ⊢
    exact ⟨⟨⟨by omega, hm.1.1.2⟩, hm.1.2⟩, hm.2⟩

/-- An address below the canonical form's start is unlisted. -/
theorem Memory.byte_below {lo a : Nat} (h : a < lo) :
    ∀ {m : Memory}, Memory.wfFrom lo m = true → Memory.byte m a = Memory.unlisted a
  | [], _ => rfl
  | (b, w) :: m, hm => by
    simp only [Memory.wfFrom, Bool.and_eq_true, decide_eq_true_eq] at hm
    rw [Memory.byte, if_neg (by omega)]
    exact Memory.byte_below (lo := b + 1) (by omega) hm.2

theorem Memory.byte_put_from {a : Nat} {v : Byte} (b : Nat) : ∀ {lo : Nat} {m : Memory}, Memory.wfFrom lo m = true →
    Memory.byte (Memory.put m a v) b = if b = a then v else Memory.byte m b
  | _, [], _ => by
    unfold Memory.put
    by_cases hb : b = a <;> by_cases hv : v = Memory.unlisted a <;> simp [hb, hv, Memory.byte]
  | lo, (c, w) :: m, hm => by
    simp only [Memory.wfFrom, Bool.and_eq_true, decide_eq_true_eq] at hm
    unfold Memory.put
    split
    · rename_i hac
      split
      · rename_i hv
        by_cases hb : b = a
        · have hne : a ≠ c := by omega
          rw [if_pos hb, hb, Memory.byte, if_neg hne, hv]
          exact Memory.byte_below (lo := c + 1) (by omega) hm.2
        · rw [if_neg hb]
      · by_cases hb : b = a <;> simp [Memory.byte, hb]
    · split
      · rename_i hac
        subst hac
        split
        · rename_i hv
          by_cases hb : b = a
          · rw [if_pos hb, hb, hv]
            exact Memory.byte_below (lo := a + 1) (by omega) hm.2
          · simp [Memory.byte, hb]
        · by_cases hb : b = a <;> simp [Memory.byte, hb]
      · rw [Memory.byte, Memory.byte_put_from b hm.2]
        by_cases hb : b = a
        · have hne : b ≠ c := by omega
          simp [hb, show a ≠ c by omega]
        · simp [hb, Memory.byte]

/-- Reading a byte after a write: the value written there, every other byte as before (R65). -/
theorem Memory.byte_put {m : Memory} (h : m.wf = true) (a b : Nat) (v : Byte) :
    (m.put a v).byte b = if b = a then v else m.byte b :=
  Memory.byte_put_from b h

theorem Memory.put_wfFrom {a : Nat} {v : Byte} (ha : a ≤ 0xFFF) : ∀ {lo : Nat} {m : Memory}, lo ≤ a →
    Memory.wfFrom lo m = true → Memory.wfFrom lo (Memory.put m a v) = true
  | lo, [], hlo, _ => by
    unfold Memory.put
    split
    · rfl
    · simp [Memory.wfFrom, *]
  | lo, (c, w) :: m, hlo, hm => by
    have hm' := hm
    simp only [Memory.wfFrom, Bool.and_eq_true, decide_eq_true_eq] at hm
    unfold Memory.put
    split
    · split
      · exact hm'
      · simp only [Memory.wfFrom, Bool.and_eq_true, decide_eq_true_eq]
        exact ⟨⟨⟨hlo, ha⟩, by assumption⟩, ⟨⟨by omega, hm.1.1.2⟩, hm.1.2⟩, hm.2⟩
    · split
      · rename_i hac
        subst hac
        split
        · exact Memory.wfFrom_mono (by omega) hm.2
        · simp only [Memory.wfFrom, Bool.and_eq_true, decide_eq_true_eq]
          exact ⟨⟨⟨hlo, ha⟩, by assumption⟩, hm.2⟩
      · simp only [Memory.wfFrom, Bool.and_eq_true, decide_eq_true_eq]
        exact ⟨⟨⟨hm.1.1.1, hm.1.1.2⟩, hm.1.2⟩, Memory.put_wfFrom ha (by omega) hm.2⟩

/-- A write inside `MEM` keeps the canonical form. -/
theorem Memory.put_wf {m : Memory} (h : m.wf = true) {a : Nat} (ha : a ≤ 0xFFF) (v : Byte) : (m.put a v).wf = true :=
  Memory.put_wfFrom ha (Nat.zero_le a) h

/-- A range inside `MEM` keeps the canonical form. -/
theorem Memory.putList_wf : ∀ (bs : List Byte) {m : Memory} {a : Nat}, m.wf = true → a + bs.length ≤ 0x1000 →
    (m.putList a bs).wf = true
  | [], _, _, h, _ => h
  | b :: bs, m, a, h, hb => by
    simp only [List.length_cons] at hb
    exact Memory.putList_wf bs (Memory.put_wf h (by omega) b) (by omega)

/-- A byte after a range has been written: the value written there, every other byte as before. -/
theorem Memory.byte_putList : ∀ (bs : List Byte) {m : Memory} {a : Nat} (b : Nat), m.wf = true → a + bs.length ≤ 0x1000 →
    (m.putList a bs).byte b = if a ≤ b then bs.getD (b - a) (m.byte b) else m.byte b
  | [], m, a, b, _, _ => by simp [Memory.putList]
  | c :: bs, m, a, b, h, hb => by
    simp only [List.length_cons] at hb
    rw [Memory.putList, Memory.byte_putList bs b (Memory.put_wf h (by omega) c) (by omega), Memory.byte_put h]
    rcases Nat.lt_trichotomy a b with hlt | heq | hgt
    · have hsub : b - a = (b - (a + 1)) + 1 := by omega
      rw [if_pos (show a + 1 ≤ b by omega), if_neg (show b ≠ a by omega), if_pos (by omega), hsub]
      simp [List.getD]
    · subst heq
      simp
    · rw [if_neg (by omega), if_neg (show b ≠ a by omega), if_neg (by omega)]

@[simp] theorem Memory.bytes_length (m : Memory) : ∀ (a n : Nat), (m.bytes a n).length = n
  | _, 0 => rfl
  | a, n + 1 => by simp [Memory.bytes, Memory.bytes_length m (a + 1) n]

/-- The `k`-th byte read from `a` is `MEM[a + k]`. -/
theorem Memory.getD_bytes (m : Memory) (d : Byte) : ∀ (n a k : Nat), k < n → (m.bytes a n).getD k d = m.byte (a + k)
  | n + 1, a, 0, _ => by simp [Memory.bytes]
  | n + 1, a, k + 1, hk => by
    have h := Memory.getD_bytes m d n (a + 1) k (by omega)
    simp only [Memory.bytes, List.getD_cons_succ]
    rw [h]
    congr 1
    omega

@[simp] theorem rangeOk_iff (a n : Nat) : rangeOk a n = true ↔ n = 0 ∨ a + n ≤ 0x1000 := by simp [rangeOk]

/-- All a load can do: the bytes, if the range is inside `MEM`; else nothing (R66). -/
theorem Memory.load?_spec (m : Memory) (a n : Nat) :
    (m.load? a n = some (m.bytes a n) ∧ (n = 0 ∨ a + n ≤ 0x1000)) ∨ (m.load? a n = none ∧ n ≠ 0 ∧ 0x1000 < a + n) := by
  unfold Memory.load?
  by_cases h : rangeOk a n = true
  · exact .inl ⟨if_pos h, (rangeOk_iff a n).1 h⟩
  · have h' : ¬(n = 0 ∨ a + n ≤ 0x1000) := fun hc => h ((rangeOk_iff a n).2 hc)
    exact .inr ⟨if_neg h, by omega, by omega⟩

/-- All a store can do: the range written, if it is inside `MEM`; else nothing (R66). -/
theorem Memory.store?_spec (m : Memory) (a : Nat) (bs : List Byte) :
    (m.store? a bs = some (m.putList a bs) ∧ (bs.length = 0 ∨ a + bs.length ≤ 0x1000)) ∨
      (m.store? a bs = none ∧ bs.length ≠ 0 ∧ 0x1000 < a + bs.length) := by
  unfold Memory.store?
  by_cases h : rangeOk a bs.length = true
  · exact .inl ⟨if_pos h, (rangeOk_iff a bs.length).1 h⟩
  · have h' : ¬(bs.length = 0 ∨ a + bs.length ≤ 0x1000) := fun hc => h ((rangeOk_iff a bs.length).2 hc)
    exact .inr ⟨if_neg h, by omega, by omega⟩

/-- A store that happens keeps the canonical form. -/
theorem Memory.store?_wf {m m' : Memory} {a : Nat} {bs : List Byte} (h : m.wf = true) (hs : m.store? a bs = some m') :
    m'.wf = true := by
  rcases Memory.store?_spec m a bs with ⟨he, hr⟩ | ⟨he, _, _⟩
  · rw [he] at hs
    cases hs
    rcases hr with hz | hr
    · rw [List.length_eq_zero_iff] at hz
      subst hz
      exact h
    · exact Memory.putList_wf bs h hr
  · rw [he] at hs
    cases hs

/-- The memory of a legal load is in canonical form (R200). -/
theorem Params.memory_wf (p : Params) (h : p.rom.length ≤ 3584) : p.memory.wf = true :=
  Memory.putList_wf p.rom (Memory.putList_wf p.font.toList rfl (by simp)) (by omega)

theorem Memory.ext_from : ∀ {lo : Nat} {m m' : Memory}, Memory.wfFrom lo m = true → Memory.wfFrom lo m' = true →
    (∀ a, Memory.byte m a = Memory.byte m' a) → m = m'
  | _, [], [], _, _, _ => rfl
  | _, [], (b, w) :: m', _, h', hb => by
    simp only [Memory.wfFrom, Bool.and_eq_true, decide_eq_true_eq] at h'
    have := hb b
    simp only [Memory.byte, if_true] at this
    exact absurd this.symm h'.1.2
  | _, (a, v) :: m, [], h, _, hb => by
    simp only [Memory.wfFrom, Bool.and_eq_true, decide_eq_true_eq] at h
    have := hb a
    simp only [Memory.byte, if_true] at this
    exact absurd this h.1.2
  | lo, (a, v) :: m, (b, w) :: m', h, h', hb => by
    have hw := h
    have hw' := h'
    simp only [Memory.wfFrom, Bool.and_eq_true, decide_eq_true_eq] at h h'
    have hab : a = b := by
      rcases Nat.lt_trichotomy a b with hlt | heq | hgt
      · have h1 := hb a
        have h2 : Memory.byte ((b, w) :: m') a = Memory.unlisted a := by
          rw [Memory.byte, if_neg (by omega)]
          exact Memory.byte_below (lo := b + 1) (by omega) h'.2
        rw [h2, Memory.byte, if_pos rfl] at h1
        exact absurd h1 h.1.2
      · exact heq
      · have h1 := hb b
        have h2 : Memory.byte ((a, v) :: m) b = Memory.unlisted b := by
          rw [Memory.byte, if_neg (by omega)]
          exact Memory.byte_below (lo := a + 1) (by omega) h.2
        rw [h2, Memory.byte, if_pos rfl] at h1
        exact absurd h1.symm h'.1.2
    subst hab
    have hvw : v = w := by simpa [Memory.byte] using hb a
    subst hvw
    have hm : m = m' := by
      refine Memory.ext_from (lo := a + 1) h.2 h'.2 fun c => ?_
      by_cases hc : c = a
      · subst hc
        rw [Memory.byte_below (lo := c + 1) (by omega) h.2, Memory.byte_below (lo := c + 1) (by omega) h'.2]
      · simpa [Memory.byte, hc] using hb c
    rw [hm]

/-- Equal memories are equal data: two canonical memories with the same bytes are the same list. -/
theorem Memory.ext_of_wf {m m' : Memory} (h : m.wf = true) (h' : m'.wf = true) (hb : ∀ a, m.byte a = m'.byte a) : m = m' :=
  Memory.ext_from h h' hb

end Sys2Proof.Machine
end

