-- ==== Sys2Proof/Laws/Ops.lean ====
section
/-! SUPPORT. What each shared operation over registers, stack, display and keys can do, said once. -/

namespace Sys2Proof.Machine

/-- Reading a register after a write (R24). -/
theorem State.readV_writeV (s : State) (x y : Nibble) (b : Byte) :
    (s.writeV x b).readV y = if y = x then b else s.readV y := by
  unfold State.readV
  simp only [State.writeV_v, Vector.getElem_set]
  by_cases h : y = x
  · simp [h]
  · have hn : x.toNat ≠ y.toNat := fun hc => h (BitVec.eq_of_toNat_eq hc.symm)
    simp [h, hn]

@[simp] theorem State.readV_writeV_same (s : State) (x : Nibble) (b : Byte) : (s.writeV x b).readV x = b := by
  rw [State.readV_writeV, if_pos rfl]

/-- `readV` depends on the registers alone. -/
theorem State.readV_congr {s t : State} (h : s.v = t.v) (x : Nibble) : s.readV x = t.readV x := by
  unfold State.readV
  simp only [h]

/-- Registers after a result and a flag: the flag in `VF`, whatever `x` is; the result in `V[x]` otherwise (R27). -/
theorem State.readV_writeResultAndFlag (s : State) (x y : Nibble) (r f : Byte) :
    (s.writeResultAndFlag x r f).readV y = if y = vf then f else if y = x then r else s.readV y := by
  unfold State.writeResultAndFlag
  rw [State.readV_writeV, State.readV_writeV]

/-- All a push can do (R117). -/
theorem State.push?_spec (s : State) (w : Word) :
    (∃ h : s.sp.val < 16, s.push? w = some { s with stack := s.stack.set s.sp.val w h, sp := ⟨s.sp.val + 1, by omega⟩ }) ∨
      (s.sp.val = 16 ∧ s.push? w = none) := by
  unfold State.push?
  by_cases h : s.sp.val < 16
  · exact .inl ⟨h, dif_pos h⟩
  · exact .inr ⟨by omega, dif_neg h⟩

/-- All a pop can do (R115). -/
theorem State.pop?_spec (s : State) :
    (∃ h : 0 < s.sp.val, s.pop? = some (s.stack[s.sp.val - 1]'(by omega), { s with sp := ⟨s.sp.val - 1, by omega⟩ })) ∨
      (s.sp.val = 0 ∧ s.pop? = none) := by
  unfold State.pop?
  by_cases h : 0 < s.sp.val
  · exact .inl ⟨h, dif_pos h⟩
  · exact .inr ⟨by omega, dif_neg h⟩

/-- A register after a range load: the byte loaded for it, every other register as before (R157). -/
theorem Regs.fill_getElem : ∀ (bs : List Byte) (v : Regs) (k j : Nat) (hj : j < 16),
    (Regs.fill v k bs)[j] = if k ≤ j then bs.getD (j - k) v[j] else v[j]
  | [], v, k, j, hj => by simp [Regs.fill]
  | b :: bs, v, k, j, hj => by
    rw [Regs.fill, Regs.fill_getElem bs _ (k + 1) j hj, Vector.getElem_setIfInBounds]
    rcases Nat.lt_trichotomy k j with hlt | heq | hgt
    · have hsub : j - k = (j - (k + 1)) + 1 := by omega
      rw [if_pos (show k + 1 ≤ j by omega), if_neg (show k ≠ j by omega), if_pos (by omega), hsub]
      simp [List.getD]
    · subst heq
      simp
    · rw [if_neg (by omega), if_neg (by omega), if_neg (by omega)]

@[simp] theorem State.regsUpTo_length (s : State) (x : Nibble) : (s.regsUpTo x).length = x.toNat + 1 := by
  have hx := x.isLt
  simp [State.regsUpTo]
  omega

/-- The `k`-th byte that `Fx55` stores is `V[k]`. -/
theorem State.regsUpTo_getD (s : State) (x : Nibble) (k : Nat) (d : Byte) (hk : k ≤ x.toNat) (h16 : k < 16) :
    (s.regsUpTo x).getD k d = s.v[k] := by
  unfold State.regsUpTo
  rw [List.getD_eq_getElem _ _ (by simp; omega)]
  simp

/-- The key number in a register, when it is one (R145). -/
theorem State.keyOperand_spec (s : State) (x : Nibble) :
    ((s.readV x).toNat ≤ 15 ∧ s.keyOperand x = some (s.readV x).toNat) ∨
      (15 < (s.readV x).toNat ∧ s.keyOperand x = none) := by
  unfold State.keyOperand
  by_cases h : (s.readV x).toNat > 15
  · exact .inr ⟨h, if_pos h⟩
  · exact .inl ⟨by omega, if_neg h⟩

/-- The lowest pressed key: it is pressed and none below it is; or none of the sixteen is pressed (R148). -/
theorem State.lowestKey_spec (s : State) :
    (∃ k, s.lowestKey = some k ∧ k < 16 ∧ s.keyDown k = true ∧ ∀ j, j < k → s.keyDown j = false) ∨
      (s.lowestKey = none ∧ ∀ j, j < 16 → s.keyDown j = false) := by
  unfold State.lowestKey
  cases h : (List.range 16).find? (fun k => s.keyDown k) with
  | none =>
    refine .inr ⟨rfl, fun j hj => ?_⟩
    have := List.find?_eq_none.1 h j (List.mem_range.2 hj)
    simpa using this
  | some k =>
    have hr := List.find?_range_eq_some.1 h
    refine .inl ⟨k, rfl, List.mem_range.1 hr.2.1, hr.1, fun j hj => ?_⟩
    have := hr.2.2 j hj
    simpa using this

/-- A pixel after a flip: the flipped one inverted, every other as before. -/
theorem Display.pixel_flip (d : Display) {x y x' y' : Nat} (hx : x < 64) (hx' : x' < 64) (hy : y < 32) (hy' : y' < 32) :
    (d.flip x y).pixel x' y' = (d.pixel x' y' ^^ decide (x' = x ∧ y' = y)) := by
  have hi : 64 * y' + x' < 2048 := by omega
  unfold Display.flip Display.pixel
  rw [BitVec.getLsbD_xor, BitVec.getLsbD_twoPow]
  congr 1
  by_cases h : x' = x ∧ y' = y
  · obtain ⟨rfl, rfl⟩ := h
    simp [hi]
  · have hne : 64 * y + x ≠ 64 * y' + x' := by omega
    simp [h, hne]

/-- A cleared display has no pixel set (R140). -/
@[simp] theorem Display.pixel_zero (x y : Nat) : Display.pixel (0#2048) x y = false := by simp [Display.pixel]

/-- A decayed timer, as a number (R165). -/
theorem decay_toNat (t : Byte) : (decay t).toNat = t.toNat - 1 := by
  unfold decay
  by_cases h : t = 0#8
  · simp [h]
  · have h0 : t.toNat ≠ 0 := fun hc => h (BitVec.eq_of_toNat_eq (by simpa using hc))
    rw [if_neg h, BitVec.toNat_sub]
    have := t.isLt
    simp only [BitVec.toNat_ofNat]
    omega

end Sys2Proof.Machine
end

