-- ==== Sys2Proof/Laws/Step.lean ====
section
/-! SUPPORT. What a step, a cycle and the control of step 1 can do, said once: proofs split on these cases instead of
unfolding the step. -/

namespace Sys2Proof.Machine

/-- With an empty image and the default font, memory after reset lists nothing. -/
theorem Params.memory_reset : State.reset.params.memory = [] := by decide +kernel

/-- The reset state is the load of an empty image with the default parameters (R200). -/
theorem State.load_empty : State.load State.reset.params = State.reset := by
  unfold State.load
  rw [Params.memory_reset]
  rfl

/-- All a step can do (log entry 1): begin a frame, run a cycle, or end the frame. -/
theorem step_cases (s : State) :
    (s.phase = .frameStart ∧ step s = .next (s.takeInput.beginFrame s.nextInput)) ∨
      (∃ k, s.CycleDue k ∧ step s = cycle { s with phase := .cycles k }) ∨
      ((s.phase = .cycles 0 ∨ ∃ k, s.phase = .cycles (k + 1) ∧ s.mode.runsCycles = false) ∧ step s = .next s.endFrame) := by
  unfold step stepPhase
  split
  · exact .inl ⟨by assumption, rfl⟩
  · exact .inr (.inr ⟨.inl (by assumption), rfl⟩)
  · rename_i k hk
    cases hm : s.mode.runsCycles with
    | true => exact .inr (.inl ⟨k, ⟨hk, hm⟩, by simp⟩)
    | false => exact .inr (.inr ⟨.inr ⟨k, hk, rfl⟩, by simp⟩)

/-- All a Running cycle can do: fault at the fetch, fault at the decode, or execute (R105). -/
theorem runningCycle_cases (s : State) :
    (0xFFE < s.pc.toNat ∧ runningCycle s = .next (s.raise .outOfBounds)) ∨
      (s.pc.toNat ≤ 0xFFE ∧ s.fetch = some (s.mem.bytes s.pc.toNat 2) ∧
        ((∃ op, decode (s.mem.bytes s.pc.toNat 2) = .invalidOpcode op ∧ runningCycle s = .next (s.raise .invalidOpcode)) ∨
          ∃ i, decode (s.mem.bytes s.pc.toNat 2) = .ok i ∧ runningCycle s = exec i s)) := by
  rcases Memory.load?_spec s.mem s.pc.toNat 2 with ⟨hl, hr⟩ | ⟨hl, _, hr⟩
  · refine .inr ⟨by omega, hl, ?_⟩
    have hb : s.mem.bytes s.pc.toNat 2 = [s.mem.byte s.pc.toNat, s.mem.byte (s.pc.toNat + 1)] := rfl
    have hf : s.fetch = some (s.mem.bytes s.pc.toNat 2) := hl
    unfold runningCycle
    rw [hf]
    cases hd : decode (s.mem.bytes s.pc.toNat 2) with
    | ok i => exact .inr ⟨i, rfl, by simp only [hd]⟩
    | invalidOpcode op => exact .inl ⟨op, rfl, by simp only [hd]⟩
    | truncated =>
      exfalso
      rw [hb] at hd
      unfold decode decodeOpcode decodeAlu decodeKeys decodeMisc at hd
      simp only at hd
      split at hd <;> (try split at hd) <;> (try split at hd) <;> cases hd
  · refine .inl ⟨by omega, ?_⟩
    have hf : s.fetch = none := hl
    unfold runningCycle
    rw [hf]

/-- All a cycle can do in each mode (R100, R101). -/
theorem cycle_cases (s : State) :
    ((s.mode = .faulted ∨ s.mode = .paused) ∧ cycle s = .next s) ∨
      (s.mode = .awaitingKey ∧ cycle s = .next s.keyWaitScan) ∨ (s.mode = .running ∧ cycle s = runningCycle s) := by
  unfold cycle
  cases s.mode <;> simp

/-- All a key scan can do (R148). -/
theorem State.keyWaitScan_cases (s : State) :
    (∃ k, k < 16 ∧ s.keyDown k = true ∧ (∀ j, j < k → s.keyDown j = false) ∧
        s.keyWaitScan = ((s.writeV s.waitReg (BitVec.ofNat 8 k)).advance).resume) ∨
      ((∀ j, j < 16 → s.keyDown j = false) ∧ s.keyWaitScan = s) := by
  unfold State.keyWaitScan
  rcases s.lowestKey_spec with ⟨k, hk, hlt, hd, hl⟩ | ⟨hk, hn⟩
  · exact .inl ⟨k, hlt, hd, hl, by rw [hk]⟩
  · exact .inr ⟨hn, by rw [hk]⟩

/-- All the controls of step 1 can do (R162, R163). -/
theorem State.control_cases (s : State) (inp : FrameInput) :
    (inp.resetReq = true ∧ s.control inp = s.reload) ∨
      (inp.resetReq = false ∧ inp.pauseToggle = true ∧ s.control inp = s.togglePause) ∨
      (inp.resetReq = false ∧ inp.pauseToggle = false ∧ s.control inp = s) := by
  unfold State.control
  cases inp.resetReq <;> cases inp.pauseToggle <;> simp

/-- A run of one more step, when the first step is known. -/
theorem run_succ (M : Host.Core) (n : Nat) (s t : M.State) (h : M.step s = .next t) : M.run (n + 1) s = M.run n t := by
  simp only [Host.Core.run, h]

/-- One more frame, when the first frame is known. -/
theorem runFrames_succ (inputs : Nat → FrameInput) (n : Nat) (s t : State) (h : frame (inputs 0) s = .next t) :
    runFrames inputs (n + 1) s = runFrames (fun k => inputs (k + 1)) n t := by
  rw [runFrames, h]

/-- A run in two parts, when the first part is known. -/
theorem run_add (M : Host.Core) (n : Nat) : ∀ (m : Nat) (s t : M.State), M.run m s = .next t → M.run (m + n) s = M.run n t
  | 0, s, t, h => by
    simp only [Host.Core.run] at h
    cases h
    rw [Nat.zero_add]
  | m + 1, s, t, h => by
    rw [Nat.add_right_comm]
    simp only [Host.Core.run] at h ⊢
    cases hs : M.step s with
    | next u =>
      rw [hs] at h
      exact run_add M n m u t h
    | fault r =>
      rw [hs] at h
      cases h
    | refused r =>
      rw [hs] at h
      cases h

end Sys2Proof.Machine
end

