-- ==== Sys2Proof/Laws/Draw.lean ====
section
/-! SUPPORT. What drawing a sprite does to a pixel and to the collision (45_display.md R141): the loops in closed form. -/

namespace Sys2Proof.Machine

/-- Column `c` of a sprite row `b` is a set bit whose target is display column `qx`. -/
def RowHits (x0 : Nat) (b : Byte) (qx c : Nat) : Prop := b.getLsbD (7 - c) = true ∧ qx = (x0 + c) % 64

/-- A display and a collision after some hits: hit pixels inverted, the others as before, and a collision exactly when one
of the hit pixels was set (or there had been one). -/
structure Drawn (hit : Nat → Nat → Prop) (before after : Display × Bool) : Prop where
  inverted : ∀ qx qy, qx < 64 → qy < 32 → hit qx qy → after.1.pixel qx qy = !before.1.pixel qx qy
  kept : ∀ qx qy, qx < 64 → qy < 32 → ¬hit qx qy → after.1.pixel qx qy = before.1.pixel qx qy
  collides : after.2 = true ↔ before.2 = true ∨ ∃ qx qy, qx < 64 ∧ qy < 32 ∧ hit qx qy ∧ before.1.pixel qx qy = true

theorem Drawn.congr {hit hit' : Nat → Nat → Prop} {a b : Display × Bool}
    (h : ∀ qx qy, qx < 64 → qy < 32 → (hit qx qy ↔ hit' qx qy)) (hd : Drawn hit a b) : Drawn hit' a b where
  inverted qx qy hx hy hh := hd.inverted qx qy hx hy ((h qx qy hx hy).2 hh)
  kept qx qy hx hy hh := hd.kept qx qy hx hy fun hc => hh ((h qx qy hx hy).1 hc)
  collides := by
    rw [hd.collides]
    refine or_congr Iff.rfl (exists_congr fun qx => exists_congr fun qy => ?_)
    refine and_congr_right fun hx => and_congr_right fun hy => and_congr (h qx qy hx hy) Iff.rfl

/-- No hit: nothing is drawn. -/
theorem Drawn.none (a : Display × Bool) : Drawn (fun _ _ => False) a a where
  inverted _ _ _ _ h := h.elim
  kept _ _ _ _ _ := rfl
  collides := by simp

/-- Hits that do not overlap compose. -/
theorem Drawn.trans {h₁ h₂ : Nat → Nat → Prop} {a b c : Display × Bool} (d₁ : Drawn h₁ a b) (d₂ : Drawn h₂ b c)
    (hdis : ∀ qx qy, h₁ qx qy → ¬h₂ qx qy) : Drawn (fun qx qy => h₁ qx qy ∨ h₂ qx qy) a c where
  inverted qx qy hx hy h := by
    rcases h with h | h
    · rw [d₂.kept qx qy hx hy (hdis qx qy h), d₁.inverted qx qy hx hy h]
    · rw [d₂.inverted qx qy hx hy h, d₁.kept qx qy hx hy fun hc => hdis qx qy hc h]
  kept qx qy hx hy h := by
    rw [not_or] at h
    rw [d₂.kept qx qy hx hy h.2, d₁.kept qx qy hx hy h.1]
  collides := by
    rw [d₂.collides, d₁.collides, or_assoc]
    refine or_congr Iff.rfl ⟨?_, ?_⟩
    · rintro (⟨qx, qy, hx, hy, hh, hp⟩ | ⟨qx, qy, hx, hy, hh, hp⟩)
      · exact ⟨qx, qy, hx, hy, .inl hh, hp⟩
      · rw [d₁.kept qx qy hx hy fun hc => hdis qx qy hc hh] at hp
        exact ⟨qx, qy, hx, hy, .inr hh, hp⟩
    · rintro ⟨qx, qy, hx, hy, hh | hh, hp⟩
      · exact .inl ⟨qx, qy, hx, hy, hh, hp⟩
      · refine .inr ⟨qx, qy, hx, hy, hh, ?_⟩
        rw [d₁.kept qx qy hx hy fun hc => hdis qx qy hc hh]
        exact hp

/-- One column: its target is hit when its bit is set. -/
theorem drawPixel_drawn (x0 py : Nat) (hpy : py < 32) (b : Byte) (acc : Display × Bool) (c : Nat) :
    Drawn (fun qx qy => qy = py ∧ RowHits x0 b qx c) acc (drawPixel x0 py b acc c) := by
  have hx0 : (x0 + c) % 64 < 64 := Nat.mod_lt _ (by omega)
  unfold drawPixel
  by_cases hb : b.getLsbD (7 - c) = true
  · rw [if_pos hb]
    refine ⟨fun qx qy hx hy h => ?_, fun qx qy hx hy h => ?_, ?_⟩
    · rw [Display.pixel_flip _ hx0 hx hpy hy, decide_eq_true ⟨h.2.2, h.1⟩, Bool.xor_true]
    · rw [Display.pixel_flip _ hx0 hx hpy hy, decide_eq_false fun hc => h ⟨hc.2, hb, hc.1⟩, Bool.xor_false]
    · simp only [Bool.or_eq_true]
      refine or_congr Iff.rfl ⟨fun h => ⟨_, _, hx0, hpy, ⟨rfl, hb, rfl⟩, h⟩, ?_⟩
      rintro ⟨qx, qy, -, -, ⟨rfl, -, rfl⟩, hp⟩
      exact hp
  · rw [if_neg hb]
    exact (Drawn.none acc).congr fun qx qy _ _ => ⟨False.elim, fun h => hb h.2.1⟩

/-- The first `k` columns of a row: eight columns land on eight different pixels. -/
theorem drawRow_drawn_upto (x0 py : Nat) (hpy : py < 32) (b : Byte) (acc : Display × Bool) : ∀ k, k ≤ 8 →
    Drawn (fun qx qy => qy = py ∧ ∃ c, c < k ∧ RowHits x0 b qx c) acc ((List.range k).foldl (drawPixel x0 py b) acc)
  | 0, _ => (Drawn.none acc).congr fun _ _ _ _ => by simp
  | k + 1, hk => by
    rw [List.range_succ, List.foldl_append, List.foldl_cons, List.foldl_nil]
    refine ((drawRow_drawn_upto x0 py hpy b acc k (by omega)).trans (drawPixel_drawn x0 py hpy b _ k) ?_).congr ?_
    · rintro qx qy ⟨-, c, hc, -, h1⟩ ⟨-, -, h2⟩
      omega
    · intro qx qy _ _
      constructor
      · rintro (⟨hy, c, hc, hh⟩ | ⟨hy, hh⟩)
        · exact ⟨hy, c, by omega, hh⟩
        · exact ⟨hy, k, by omega, hh⟩
      · rintro ⟨hy, c, hc, hh⟩
        by_cases hck : c = k
        · subst hck
          exact .inr ⟨hy, hh⟩
        · exact .inl ⟨hy, c, by omega, hh⟩

/-- All that drawing a list of rows from row `r` can do: at most 32 rows land on different display rows. -/
theorem drawRows_drawn (x0 y0 : Nat) : ∀ (bs : List Byte) (r : Nat) (acc : Display × Bool), r + bs.length ≤ 32 →
    Drawn (fun qx qy => ∃ k c, k < bs.length ∧ c < 8 ∧ RowHits x0 (bs.getD k 0) qx c ∧ qy = (y0 + (r + k)) % 32) acc
      (drawRows x0 y0 r bs acc)
  | [], _, acc, _ => (Drawn.none acc).congr fun _ _ _ _ => by simp
  | b :: bs, r, acc, hr => by
    simp only [List.length_cons] at hr
    have hpy : (y0 + r) % 32 < 32 := Nat.mod_lt _ (by omega)
    rw [drawRows]
    refine ((drawRow_drawn_upto x0 _ hpy b acc 8 (Nat.le_refl 8)).trans
      (drawRows_drawn x0 y0 bs (r + 1) _ (by omega)) ?_).congr ?_
    · rintro qx qy ⟨h1, -⟩ ⟨k, c, hk, -, -, h2⟩
      omega
    · intro qx qy _ _
      constructor
      · rintro (⟨hy, c, hc, hh⟩ | ⟨k, c, hk, hc, hh, hy⟩)
        · exact ⟨0, c, by simp, hc, by simpa using hh, by simpa using hy⟩
        · exact ⟨k + 1, c, by simpa using hk, hc, by simpa using hh, by rw [hy]; congr 2; omega⟩
      · rintro ⟨k, c, hk, hc, hh, hy⟩
        cases k with
        | zero => exact .inl ⟨by simpa using hy, c, hc, by simpa using hh⟩
        | succ k => exact .inr ⟨k, c, by simpa using hk, hc, by simpa using hh, by rw [hy]; congr 2; omega⟩

end Sys2Proof.Machine
end

