-- ==== Sys2Proof/Laws/Encoding.lean ====
section
/-! SUPPORT. The fields of an encoded opcode, and an opcode put together from its own fields (30_encoding.md R81, R92). -/

namespace Sys2Proof

@[simp] theorem fieldF_encodeNNN (f : Nibble) (nnn : Addr) : fieldF (encodeNNN f nnn) = f := by
  unfold fieldF encodeNNN
  ext i hi
  interval_cases i <;> simp

@[simp] theorem fieldNNN_encodeNNN (f : Nibble) (nnn : Addr) : fieldNNN (encodeNNN f nnn) = nnn := by
  unfold fieldNNN encodeNNN
  ext i hi
  interval_cases i <;> simp

@[simp] theorem fieldF_encodeXKK (f x : Nibble) (kk : Byte) : fieldF (encodeXKK f x kk) = f := by
  unfold fieldF encodeXKK
  ext i hi
  interval_cases i <;> simp

@[simp] theorem fieldX_encodeXKK (f x : Nibble) (kk : Byte) : fieldX (encodeXKK f x kk) = x := by
  unfold fieldX encodeXKK
  ext i hi
  interval_cases i <;> simp

@[simp] theorem fieldKK_encodeXKK (f x : Nibble) (kk : Byte) : fieldKK (encodeXKK f x kk) = kk := by
  unfold fieldKK encodeXKK
  ext i hi
  interval_cases i <;> simp

@[simp] theorem fieldF_encodeXYN (f x y n : Nibble) : fieldF (encodeXYN f x y n) = f := by
  unfold fieldF encodeXYN
  ext i hi
  interval_cases i <;> simp

@[simp] theorem fieldX_encodeXYN (f x y n : Nibble) : fieldX (encodeXYN f x y n) = x := by
  unfold fieldX encodeXYN
  ext i hi
  interval_cases i <;> simp

@[simp] theorem fieldY_encodeXYN (f x y n : Nibble) : fieldY (encodeXYN f x y n) = y := by
  unfold fieldY encodeXYN
  ext i hi
  interval_cases i <;> simp

@[simp] theorem fieldN_encodeXYN (f x y n : Nibble) : fieldN (encodeXYN f x y n) = n := by
  unfold fieldN encodeXYN
  ext i hi
  interval_cases i <;> simp

/-- The two bytes of an opcode give the opcode back (R62). -/
@[simp] theorem opcodeOfBytes_bytes (op : Opcode) :
    opcodeOfBytes (op.extractLsb' 8 8) (op.extractLsb' 0 8) = op := by
  unfold opcodeOfBytes
  ext i hi
  interval_cases i <;> simp

/-- An opcode as a number: high byte times 256 plus low byte (R62). -/
theorem opcodeOfBytes_toNat (hi lo : Byte) : (opcodeOfBytes hi lo).toNat = hi.toNat * 256 + lo.toNat := by
  have h1 := hi.isLt
  have h2 := lo.isLt
  unfold opcodeOfBytes
  rw [BitVec.toNat_or, BitVec.toNat_shiftLeft, BitVec.toNat_setWidth, BitVec.toNat_setWidth,
    Nat.mod_eq_of_lt (show hi.toNat < 2 ^ 16 by omega), Nat.mod_eq_of_lt (show lo.toNat < 2 ^ 16 by omega),
    Nat.shiftLeft_eq, Nat.mod_eq_of_lt (by omega), Nat.mul_comm, ← Nat.two_pow_add_eq_or_of_lt h2]

theorem encodeNNN_fields (op : Opcode) : encodeNNN (fieldF op) (fieldNNN op) = op := by
  unfold encodeNNN fieldF fieldNNN
  ext i hi
  interval_cases i <;> simp

theorem encodeXKK_fields (op : Opcode) : encodeXKK (fieldF op) (fieldX op) (fieldKK op) = op := by
  unfold encodeXKK fieldF fieldX fieldKK
  ext i hi
  interval_cases i <;> simp

theorem encodeXYN_fields (op : Opcode) : encodeXYN (fieldF op) (fieldX op) (fieldY op) (fieldN op) = op := by
  unfold encodeXYN fieldF fieldX fieldY fieldN
  ext i hi
  interval_cases i <;> simp

/-- An opcode of a row with mask 0xF000 has the row's family. -/
theorem fieldF_of_mask {op p : Opcode} (h : op &&& 0xF000 = p) : fieldF op = fieldF p := by
  subst h
  unfold fieldF
  ext i hi
  interval_cases i <;> simp

/-- An opcode of a row with mask 0xF00F has the row's family and low nibble. -/
theorem fieldFN_of_mask {op p : Opcode} (h : op &&& 0xF00F = p) : fieldF op = fieldF p ∧ fieldN op = fieldN p := by
  subst h
  unfold fieldF fieldN
  constructor <;> ext i hi <;> interval_cases i <;> simp

/-- An opcode of a row with mask 0xF0FF has the row's family and low byte. -/
theorem fieldFKK_of_mask {op p : Opcode} (h : op &&& 0xF0FF = p) : fieldF op = fieldF p ∧ fieldKK op = fieldKK p := by
  subst h
  unfold fieldF fieldKK
  constructor <;> ext i hi <;> interval_cases i <;> simp

end Sys2Proof
end

