-- ==== Sys2Proof/Laws/Exec.lean ====
section
/-! SUPPORT. The instructions that have an execution check (40_cycle.md R105), each as two equations: what `exec` answers
when the check passes and when it fails. Every other arm is its meaning by rfl. No arm stops the machine. -/

namespace Sys2Proof.Machine

variable (s : State)

/-- Every instruction answers a next state: a fault of the block is one too (R177). -/
theorem exec_answers (i : Instr) : ∃ t, exec i s = .next t := by cases i <;> exact ⟨_, rfl⟩

theorem exec_call_of_room (nnn : Addr) (h : s.sp.val < 16) : exec (.call nnn) s = .next (State.writePc
    { s with stack := s.stack.set s.sp.val s.pc h, sp := ⟨s.sp.val + 1, by omega⟩ } (nnn.setWidth 16)) := by
  show Host.Outcome.next _ = _
  rw [State.push?, dif_pos h]
  rfl

theorem exec_call_of_full (nnn : Addr) (h : s.sp.val = 16) : exec (.call nnn) s = .next (s.raise .stackOverflow) := by
  show Host.Outcome.next _ = _
  rw [State.push?, dif_neg (by omega)]
  rfl

theorem exec_ret_of_entry (h : 0 < s.sp.val) : exec .ret s = .next (State.writePc
    { s with sp := ⟨s.sp.val - 1, by omega⟩ } (s.stack[s.sp.val - 1]'(by omega) + 2#16)) := by
  show Host.Outcome.next _ = _
  rw [State.pop?, dif_pos h]
  rfl

theorem exec_ret_of_empty (h : s.sp.val = 0) : exec .ret s = .next (s.raise .stackUnderflow) := by
  show Host.Outcome.next _ = _
  rw [State.pop?, dif_neg (by omega)]
  rfl

theorem exec_skp_of_key (x : Nibble) (h : (s.readV x).toNat ≤ 15) :
    exec (.skp x) s = .next (s.skipIf (s.keyDown (s.readV x).toNat)) := by
  show Host.Outcome.next _ = _
  rw [State.keyOperand, if_neg (by omega)]
  rfl

theorem exec_skp_out_of_range (x : Nibble) (h : 15 < (s.readV x).toNat) :
    exec (.skp x) s = .next (s.raise .keyOutOfRange) := by
  show Host.Outcome.next _ = _
  rw [State.keyOperand, if_pos h]
  rfl

theorem exec_sknp_of_key (x : Nibble) (h : (s.readV x).toNat ≤ 15) :
    exec (.sknp x) s = .next (s.skipIf (!s.keyDown (s.readV x).toNat)) := by
  show Host.Outcome.next _ = _
  rw [State.keyOperand, if_neg (by omega)]
  rfl

theorem exec_sknp_out_of_range (x : Nibble) (h : 15 < (s.readV x).toNat) :
    exec (.sknp x) s = .next (s.raise .keyOutOfRange) := by
  show Host.Outcome.next _ = _
  rw [State.keyOperand, if_pos h]
  rfl

theorem exec_drw_in_memory (x y n : Nibble) (h : n.toNat = 0 ∨ s.i.toNat + n.toNat ≤ 0x1000) :
    exec (.drw x y n) s = .next (s.drawSprite x y (s.mem.bytes s.i.toNat n.toNat)) := by
  show Host.Outcome.next _ = _
  rw [State.loadAtI, Memory.load?, if_pos ((rangeOk_iff _ _).2 h)]
  rfl

theorem exec_drw_out_of_memory (x y n : Nibble) (h0 : 0 < n.toNat) (h : 0x1000 < s.i.toNat + n.toNat) :
    exec (.drw x y n) s = .next (s.raise .dataOutOfBounds) := by
  show Host.Outcome.next _ = _
  rw [State.loadAtI, Memory.load?, if_neg (by rw [rangeOk_iff]; omega)]
  rfl

theorem exec_ldBVx_in_memory (x : Nibble) (h : s.i.toNat + 3 ≤ 0x1000) : exec (.ldBVx x) s =
    .next (s.writeMem (s.mem.putList s.i.toNat (decimalDigits (s.readV x)))).advance := by
  show Host.Outcome.next _ = _
  rw [State.storeAtI, Memory.store?, if_pos ((rangeOk_iff _ _).2 (.inr (by simp [decimalDigits]; omega)))]
  rfl

theorem exec_ldBVx_out_of_memory (x : Nibble) (h : 0x1000 < s.i.toNat + 3) :
    exec (.ldBVx x) s = .next (s.raise .dataOutOfBounds) := by
  show Host.Outcome.next _ = _
  rw [State.storeAtI, Memory.store?, if_neg (by rw [rangeOk_iff]; simp [decimalDigits]; omega)]
  rfl

theorem exec_ldMemVx_in_memory (x : Nibble) (h : s.i.toNat + x.toNat ≤ 0xFFF) : exec (.ldMemVx x) s =
    .next ((s.writeMem (s.mem.putList s.i.toNat (s.regsUpTo x))).advanceI x).advance := by
  show Host.Outcome.next _ = _
  rw [State.storeAtI, Memory.store?, if_pos ((rangeOk_iff _ _).2 (.inr (by simp; omega)))]
  rfl

theorem exec_ldMemVx_out_of_memory (x : Nibble) (h : 0xFFF < s.i.toNat + x.toNat) :
    exec (.ldMemVx x) s = .next (s.raise .dataOutOfBounds) := by
  show Host.Outcome.next _ = _
  rw [State.storeAtI, Memory.store?, if_neg (by rw [rangeOk_iff]; simp; omega)]
  rfl

theorem exec_ldVxMem_in_memory (x : Nibble) (h : s.i.toNat + x.toNat ≤ 0xFFF) : exec (.ldVxMem x) s =
    .next ((s.writeRegs (s.v.fill 0 (s.mem.bytes s.i.toNat (x.toNat + 1)))).advanceI x).advance := by
  show Host.Outcome.next _ = _
  rw [State.loadAtI, Memory.load?, if_pos ((rangeOk_iff _ _).2 (.inr (by omega)))]
  rfl

theorem exec_ldVxMem_out_of_memory (x : Nibble) (h : 0xFFF < s.i.toNat + x.toNat) :
    exec (.ldVxMem x) s = .next (s.raise .dataOutOfBounds) := by
  show Host.Outcome.next _ = _
  rw [State.loadAtI, Memory.load?, if_neg (by rw [rangeOk_iff]; omega)]
  rfl

end Sys2Proof.Machine
end

