-- ==== Sys2Proof/Laws/PerInstr.lean ====
section
/-! SUPPORT. Family Row: the opcode the encoder gives an instruction selects the row of 30_encoding.md R86 that the row's
match and mask columns say, and so is well formed. WellFormed.lean writes the table without the encoder, so this compares
two readings of the spec. -/

namespace Sys2Proof

/-- The row of R86 that an instruction belongs to. -/
def Instr.row : Instr → OpcodeRow
  | .cls => ⟨0x00E0, 0xFFFF⟩
  | .ret => ⟨0x00EE, 0xFFFF⟩
  | .jp _ => ⟨0x1000, 0xF000⟩
  | .call _ => ⟨0x2000, 0xF000⟩
  | .seByte _ _ => ⟨0x3000, 0xF000⟩
  | .sneByte _ _ => ⟨0x4000, 0xF000⟩
  | .seReg _ _ => ⟨0x5000, 0xF00F⟩
  | .ldByte _ _ => ⟨0x6000, 0xF000⟩
  | .addByte _ _ => ⟨0x7000, 0xF000⟩
  | .ldReg _ _ => ⟨0x8000, 0xF00F⟩
  | .orReg _ _ => ⟨0x8001, 0xF00F⟩
  | .andReg _ _ => ⟨0x8002, 0xF00F⟩
  | .xorReg _ _ => ⟨0x8003, 0xF00F⟩
  | .addReg _ _ => ⟨0x8004, 0xF00F⟩
  | .subReg _ _ => ⟨0x8005, 0xF00F⟩
  | .shr _ _ => ⟨0x8006, 0xF00F⟩
  | .subnReg _ _ => ⟨0x8007, 0xF00F⟩
  | .shl _ _ => ⟨0x800E, 0xF00F⟩
  | .sneReg _ _ => ⟨0x9000, 0xF00F⟩
  | .ldI _ => ⟨0xA000, 0xF000⟩
  | .jpV0 _ => ⟨0xB000, 0xF000⟩
  | .rnd _ _ => ⟨0xC000, 0xF000⟩
  | .drw _ _ _ => ⟨0xD000, 0xF000⟩
  | .skp _ => ⟨0xE09E, 0xF0FF⟩
  | .sknp _ => ⟨0xE0A1, 0xF0FF⟩
  | .ldVxDt _ => ⟨0xF007, 0xF0FF⟩
  | .ldVxK _ => ⟨0xF00A, 0xF0FF⟩
  | .ldDtVx _ => ⟨0xF015, 0xF0FF⟩
  | .ldStVx _ => ⟨0xF018, 0xF0FF⟩
  | .addIVx _ => ⟨0xF01E, 0xF0FF⟩
  | .ldFVx _ => ⟨0xF029, 0xF0FF⟩
  | .ldBVx _ => ⟨0xF033, 0xF0FF⟩
  | .ldMemVx _ => ⟨0xF055, 0xF0FF⟩
  | .ldVxMem _ => ⟨0xF065, 0xF0FF⟩

theorem encodeNNN_mask (f : Nibble) (nnn : Addr) : encodeNNN f nnn &&& 0xF000 = f.setWidth 16 <<< 12 := by
  unfold encodeNNN
  ext i hi
  interval_cases i <;> simp

theorem encodeXKK_mask (f x : Nibble) (kk : Byte) : encodeXKK f x kk &&& 0xF000 = f.setWidth 16 <<< 12 := by
  unfold encodeXKK
  ext i hi
  interval_cases i <;> simp

theorem encodeXKK_maskByte (f x : Nibble) (kk : Byte) :
    encodeXKK f x kk &&& 0xF0FF = f.setWidth 16 <<< 12 ||| kk.setWidth 16 := by
  unfold encodeXKK
  ext i hi
  interval_cases i <;> simp

theorem encodeXYN_mask (f x y n : Nibble) : encodeXYN f x y n &&& 0xF000 = f.setWidth 16 <<< 12 := by
  unfold encodeXYN
  ext i hi
  interval_cases i <;> simp

theorem encodeXYN_maskNibble (f x y n : Nibble) :
    encodeXYN f x y n &&& 0xF00F = f.setWidth 16 <<< 12 ||| n.setWidth 16 := by
  unfold encodeXYN
  ext i hi
  interval_cases i <;> simp

/-- An opcode that selects a row of the table is well formed. -/
theorem Opcode.wellFormed_of_row {op : Opcode} {r : OpcodeRow} (h : r ∈ opcodeRows) (hs : op &&& r.mask = r.pattern) :
    Opcode.wellFormed op = true :=
  List.any_eq_true.2 ⟨r, h, beq_iff_eq.2 hs⟩

end Sys2Proof

namespace Sys2Proof.Laws.Row

/-- The instruction's opcode selects the instruction's row, and that row is in the table. -/
def Statement (i : Instr) : Prop :=
  encodeOpcode i &&& i.row.mask = i.row.pattern ∧ i.row ∈ opcodeRows

/-- A row with operands: the masked opcode, computed, is the pattern. -/
theorem of_mask {i : Instr} {w : Opcode} (h : encodeOpcode i &&& i.row.mask = w) (hw : w = i.row.pattern)
    (hm : i.row ∈ opcodeRows) : Statement i := ⟨h.trans hw, hm⟩

/-- An instruction's opcode is well formed. -/
theorem Statement.wellFormed {i : Instr} (h : Statement i) : Opcode.wellFormed (encodeOpcode i) = true :=
  Opcode.wellFormed_of_row h.2 h.1

theorem cls : Statement (.cls) :=
  ⟨by decide, by decide⟩
theorem ret : Statement (.ret) :=
  ⟨by decide, by decide⟩
theorem jp (nnn : Addr) : Statement (.jp nnn) :=
  of_mask (encodeNNN_mask _ _) rfl (show (⟨0x1000, 0xF000⟩ : OpcodeRow) ∈ opcodeRows by decide)
theorem call (nnn : Addr) : Statement (.call nnn) :=
  of_mask (encodeNNN_mask _ _) rfl (show (⟨0x2000, 0xF000⟩ : OpcodeRow) ∈ opcodeRows by decide)
theorem seByte (x : Nibble) (kk : Byte) : Statement (.seByte x kk) :=
  of_mask (encodeXKK_mask _ _ _) rfl (show (⟨0x3000, 0xF000⟩ : OpcodeRow) ∈ opcodeRows by decide)
theorem sneByte (x : Nibble) (kk : Byte) : Statement (.sneByte x kk) :=
  of_mask (encodeXKK_mask _ _ _) rfl (show (⟨0x4000, 0xF000⟩ : OpcodeRow) ∈ opcodeRows by decide)
theorem seReg (x : Nibble) (y : Nibble) : Statement (.seReg x y) :=
  of_mask (encodeXYN_maskNibble _ _ _ _) rfl (show (⟨0x5000, 0xF00F⟩ : OpcodeRow) ∈ opcodeRows by decide)
theorem ldByte (x : Nibble) (kk : Byte) : Statement (.ldByte x kk) :=
  of_mask (encodeXKK_mask _ _ _) rfl (show (⟨0x6000, 0xF000⟩ : OpcodeRow) ∈ opcodeRows by decide)
theorem addByte (x : Nibble) (kk : Byte) : Statement (.addByte x kk) :=
  of_mask (encodeXKK_mask _ _ _) rfl (show (⟨0x7000, 0xF000⟩ : OpcodeRow) ∈ opcodeRows by decide)
theorem ldReg (x : Nibble) (y : Nibble) : Statement (.ldReg x y) :=
  of_mask (encodeXYN_maskNibble _ _ _ _) rfl (show (⟨0x8000, 0xF00F⟩ : OpcodeRow) ∈ opcodeRows by decide)
theorem orReg (x : Nibble) (y : Nibble) : Statement (.orReg x y) :=
  of_mask (encodeXYN_maskNibble _ _ _ _) rfl (show (⟨0x8001, 0xF00F⟩ : OpcodeRow) ∈ opcodeRows by decide)
theorem andReg (x : Nibble) (y : Nibble) : Statement (.andReg x y) :=
  of_mask (encodeXYN_maskNibble _ _ _ _) rfl (show (⟨0x8002, 0xF00F⟩ : OpcodeRow) ∈ opcodeRows by decide)
theorem xorReg (x : Nibble) (y : Nibble) : Statement (.xorReg x y) :=
  of_mask (encodeXYN_maskNibble _ _ _ _) rfl (show (⟨0x8003, 0xF00F⟩ : OpcodeRow) ∈ opcodeRows by decide)
theorem addReg (x : Nibble) (y : Nibble) : Statement (.addReg x y) :=
  of_mask (encodeXYN_maskNibble _ _ _ _) rfl (show (⟨0x8004, 0xF00F⟩ : OpcodeRow) ∈ opcodeRows by decide)
theorem subReg (x : Nibble) (y : Nibble) : Statement (.subReg x y) :=
  of_mask (encodeXYN_maskNibble _ _ _ _) rfl (show (⟨0x8005, 0xF00F⟩ : OpcodeRow) ∈ opcodeRows by decide)
theorem shr (x : Nibble) (y : Nibble) : Statement (.shr x y) :=
  of_mask (encodeXYN_maskNibble _ _ _ _) rfl (show (⟨0x8006, 0xF00F⟩ : OpcodeRow) ∈ opcodeRows by decide)
theorem subnReg (x : Nibble) (y : Nibble) : Statement (.subnReg x y) :=
  of_mask (encodeXYN_maskNibble _ _ _ _) rfl (show (⟨0x8007, 0xF00F⟩ : OpcodeRow) ∈ opcodeRows by decide)
theorem shl (x : Nibble) (y : Nibble) : Statement (.shl x y) :=
  of_mask (encodeXYN_maskNibble _ _ _ _) rfl (show (⟨0x800E, 0xF00F⟩ : OpcodeRow) ∈ opcodeRows by decide)
theorem sneReg (x : Nibble) (y : Nibble) : Statement (.sneReg x y) :=
  of_mask (encodeXYN_maskNibble _ _ _ _) rfl (show (⟨0x9000, 0xF00F⟩ : OpcodeRow) ∈ opcodeRows by decide)
theorem ldI (nnn : Addr) : Statement (.ldI nnn) :=
  of_mask (encodeNNN_mask _ _) rfl (show (⟨0xA000, 0xF000⟩ : OpcodeRow) ∈ opcodeRows by decide)
theorem jpV0 (nnn : Addr) : Statement (.jpV0 nnn) :=
  of_mask (encodeNNN_mask _ _) rfl (show (⟨0xB000, 0xF000⟩ : OpcodeRow) ∈ opcodeRows by decide)
theorem rnd (x : Nibble) (kk : Byte) : Statement (.rnd x kk) :=
  of_mask (encodeXKK_mask _ _ _) rfl (show (⟨0xC000, 0xF000⟩ : OpcodeRow) ∈ opcodeRows by decide)
theorem drw (x : Nibble) (y : Nibble) (n : Nibble) : Statement (.drw x y n) :=
  of_mask (encodeXYN_mask _ _ _ _) rfl (show (⟨0xD000, 0xF000⟩ : OpcodeRow) ∈ opcodeRows by decide)
theorem skp (x : Nibble) : Statement (.skp x) :=
  of_mask (encodeXKK_maskByte _ _ _) rfl (show (⟨0xE09E, 0xF0FF⟩ : OpcodeRow) ∈ opcodeRows by decide)
theorem sknp (x : Nibble) : Statement (.sknp x) :=
  of_mask (encodeXKK_maskByte _ _ _) rfl (show (⟨0xE0A1, 0xF0FF⟩ : OpcodeRow) ∈ opcodeRows by decide)
theorem ldVxDt (x : Nibble) : Statement (.ldVxDt x) :=
  of_mask (encodeXKK_maskByte _ _ _) rfl (show (⟨0xF007, 0xF0FF⟩ : OpcodeRow) ∈ opcodeRows by decide)
theorem ldVxK (x : Nibble) : Statement (.ldVxK x) :=
  of_mask (encodeXKK_maskByte _ _ _) rfl (show (⟨0xF00A, 0xF0FF⟩ : OpcodeRow) ∈ opcodeRows by decide)
theorem ldDtVx (x : Nibble) : Statement (.ldDtVx x) :=
  of_mask (encodeXKK_maskByte _ _ _) rfl (show (⟨0xF015, 0xF0FF⟩ : OpcodeRow) ∈ opcodeRows by decide)
theorem ldStVx (x : Nibble) : Statement (.ldStVx x) :=
  of_mask (encodeXKK_maskByte _ _ _) rfl (show (⟨0xF018, 0xF0FF⟩ : OpcodeRow) ∈ opcodeRows by decide)
theorem addIVx (x : Nibble) : Statement (.addIVx x) :=
  of_mask (encodeXKK_maskByte _ _ _) rfl (show (⟨0xF01E, 0xF0FF⟩ : OpcodeRow) ∈ opcodeRows by decide)
theorem ldFVx (x : Nibble) : Statement (.ldFVx x) :=
  of_mask (encodeXKK_maskByte _ _ _) rfl (show (⟨0xF029, 0xF0FF⟩ : OpcodeRow) ∈ opcodeRows by decide)
theorem ldBVx (x : Nibble) : Statement (.ldBVx x) :=
  of_mask (encodeXKK_maskByte _ _ _) rfl (show (⟨0xF033, 0xF0FF⟩ : OpcodeRow) ∈ opcodeRows by decide)
theorem ldMemVx (x : Nibble) : Statement (.ldMemVx x) :=
  of_mask (encodeXKK_maskByte _ _ _) rfl (show (⟨0xF055, 0xF0FF⟩ : OpcodeRow) ∈ opcodeRows by decide)
theorem ldVxMem (x : Nibble) : Statement (.ldVxMem x) :=
  of_mask (encodeXKK_maskByte _ _ _) rfl (show (⟨0xF065, 0xF0FF⟩ : OpcodeRow) ∈ opcodeRows by decide)

end Sys2Proof.Laws.Row
end

