-- ==== Sys2Proof/Tests/Slice0.lean ====
section
/-! SUPPORT. The model's own tests. Expected results come from spec/: the patterns of 30_encoding.md R86 and the vectors of
    95_test_vectors.md (named in each comment), and by hand from the rule named. After them, one witness per statement that has
hypotheses: a concrete state and operands that meet them together, for each clause at a boundary value. -/

namespace Sys2Proof.Machine.Tests

/-- The convention of 95_test_vectors.md: reset, the opcode at `PC` = 0x200, Running, one cycle due. -/
def base (op : Nat) : State := State.reset.withFetchWord 16 op

/-- The state after one step. -/
def ran (s : State) : State :=
  match step s with
  | .next t => t
  | .fault _ => s
  | .refused _ => s

/-- `I` at an address. -/
def atI (s : State) (a : Nat) : State := s.writeI (BitVec.ofNat 16 a)

/-- Bytes stored in memory. -/
def stored (s : State) (a : Nat) (bs : List Byte) : State := s.writeMem (s.mem.putList a bs)

/-- An instruction at another address: the opcode's bytes there, `PC` at them. -/
def placedAt (a op : Nat) : State :=
  stored { base op with pc := BitVec.ofNat 16 a } a (opcodeBytes (BitVec.ofNat 16 op))

/-- Registers 0, 1 and `VF` set, the others 0. -/
def regs (s : State) (a b f : Byte) : State := ((s.writeV 0 a).writeV 1 b).writeV vf f

/-- The pixels of a list set on a clear display. -/
def pixels (l : List (Nat × Nat)) : Display := l.foldl (fun d p => d.flip p.1 p.2) 0

/-! ### Ill-formed opcodes are refused (R88), one for each kind of check and each family that has one -/

theorem test_ill_formed_family0_zero :
    Opcode.wellFormed 0x0000 = false ∧ decodeOpcode 0x0000 = .invalidOpcode 0x0000 := by decide
theorem test_ill_formed_family0_machine_code :
    Opcode.wellFormed 0x0123 = false ∧ decodeOpcode 0x0123 = .invalidOpcode 0x0123 := by decide
theorem test_ill_formed_family0_next_to_cls :
    Opcode.wellFormed 0x00E1 = false ∧ decodeOpcode 0x00E1 = .invalidOpcode 0x00E1 := by decide
theorem test_ill_formed_family5_low_nibble :
    Opcode.wellFormed 0x5121 = false ∧ decodeOpcode 0x5121 = .invalidOpcode 0x5121 := by decide
theorem test_ill_formed_family8_first_gap :
    Opcode.wellFormed 0x8128 = false ∧ decodeOpcode 0x8128 = .invalidOpcode 0x8128 := by decide
theorem test_ill_formed_family8_last_gap :
    Opcode.wellFormed 0x812F = false ∧ decodeOpcode 0x812F = .invalidOpcode 0x812F := by decide
theorem test_ill_formed_family9_low_nibble :
    Opcode.wellFormed 0x912F = false ∧ decodeOpcode 0x912F = .invalidOpcode 0x912F := by decide
theorem test_ill_formed_familyE_zero :
    Opcode.wellFormed 0xE000 = false ∧ decodeOpcode 0xE000 = .invalidOpcode 0xE000 := by decide
theorem test_ill_formed_familyE_next_to_skp :
    Opcode.wellFormed 0xE29F = false ∧ decodeOpcode 0xE29F = .invalidOpcode 0xE29F := by decide
theorem test_ill_formed_familyF_last :
    Opcode.wellFormed 0xF0FF = false ∧ decodeOpcode 0xF0FF = .invalidOpcode 0xF0FF := by decide
theorem test_ill_formed_familyF_between :
    Opcode.wellFormed 0xF075 = false ∧ decodeOpcode 0xF075 = .invalidOpcode 0xF075 := by decide
theorem test_too_few_bytes : decode [] = .truncated ∧ decode [0x12] = .truncated := by decide
theorem test_high_byte_first :
    decode [0x62, 0x05] = .ok (.ldByte 2 5) ∧ decode [0x05, 0x62] = .invalidOpcode 0x0562 := by decide
theorem test_table_word_bits :
    decodeTableWord 16 0x8014 = some (.addReg 0 1) ∧ decodeTableWord 8 0x8014 = none := by decide

/-! ### One word per constructor, written out bit by bit from the patterns of R86 -/

theorem test_decode_cls : decodeOpcode 0b0000000011100000 = .ok .cls := by decide
theorem test_decode_ret : decodeOpcode 0b0000000011101110 = .ok .ret := by decide
theorem test_decode_jp : decodeOpcode 0b0001101010111100 = .ok (.jp 0b101010111100) := by decide
theorem test_decode_call : decodeOpcode 0b0010001100000001 = .ok (.call 0b001100000001) := by decide
theorem test_decode_seByte : decodeOpcode 0b0011000100000101 = .ok (.seByte 0b0001 0b00000101) := by decide
theorem test_decode_sneByte : decodeOpcode 0b0100111010000001 = .ok (.sneByte 0b1110 0b10000001) := by decide
theorem test_decode_seReg : decodeOpcode 0b0101000100100000 = .ok (.seReg 0b0001 0b0010) := by decide
theorem test_decode_ldByte : decodeOpcode 0b0110101010111100 = .ok (.ldByte 0b1010 0b10111100) := by decide
theorem test_decode_addByte : decodeOpcode 0b0111001000000011 = .ok (.addByte 0b0010 0b00000011) := by decide
theorem test_decode_ldReg : decodeOpcode 0b1000000100100000 = .ok (.ldReg 0b0001 0b0010) := by decide
theorem test_decode_orReg : decodeOpcode 0b1000000100100001 = .ok (.orReg 0b0001 0b0010) := by decide
theorem test_decode_andReg : decodeOpcode 0b1000000100100010 = .ok (.andReg 0b0001 0b0010) := by decide
theorem test_decode_xorReg : decodeOpcode 0b1000000100100011 = .ok (.xorReg 0b0001 0b0010) := by decide
theorem test_decode_addReg : decodeOpcode 0b1000000100100100 = .ok (.addReg 0b0001 0b0010) := by decide
theorem test_decode_subReg : decodeOpcode 0b1000000100100101 = .ok (.subReg 0b0001 0b0010) := by decide
theorem test_decode_shr : decodeOpcode 0b1000000100100110 = .ok (.shr 0b0001 0b0010) := by decide
theorem test_decode_subnReg : decodeOpcode 0b1000000100100111 = .ok (.subnReg 0b0001 0b0010) := by decide
theorem test_decode_shl : decodeOpcode 0b1000000100101110 = .ok (.shl 0b0001 0b0010) := by decide
theorem test_decode_sneReg : decodeOpcode 0b1001000100100000 = .ok (.sneReg 0b0001 0b0010) := by decide
theorem test_decode_ldI : decodeOpcode 0b1010111111111110 = .ok (.ldI 0b111111111110) := by decide
theorem test_decode_jpV0 : decodeOpcode 0b1011001100000000 = .ok (.jpV0 0b001100000000) := by decide
theorem test_decode_rnd : decodeOpcode 0b1100001100001111 = .ok (.rnd 0b0011 0b00001111) := by decide
theorem test_decode_drw : decodeOpcode 0b1101000100100101 = .ok (.drw 0b0001 0b0010 0b0101) := by decide
theorem test_decode_skp : decodeOpcode 0b1110001010011110 = .ok (.skp 0b0010) := by decide
theorem test_decode_sknp : decodeOpcode 0b1110001010100001 = .ok (.sknp 0b0010) := by decide
theorem test_decode_ldVxDt : decodeOpcode 0b1111010000000111 = .ok (.ldVxDt 0b0100) := by decide
theorem test_decode_ldVxK : decodeOpcode 0b1111001100001010 = .ok (.ldVxK 0b0011) := by decide
theorem test_decode_ldDtVx : decodeOpcode 0b1111010000010101 = .ok (.ldDtVx 0b0100) := by decide
theorem test_decode_ldStVx : decodeOpcode 0b1111010000011000 = .ok (.ldStVx 0b0100) := by decide
theorem test_decode_addIVx : decodeOpcode 0b1111000100011110 = .ok (.addIVx 0b0001) := by decide
theorem test_decode_ldFVx : decodeOpcode 0b1111001000101001 = .ok (.ldFVx 0b0010) := by decide
theorem test_decode_ldBVx : decodeOpcode 0b1111001000110011 = .ok (.ldBVx 0b0010) := by decide
theorem test_decode_ldMemVx : decodeOpcode 0b1111001001010101 = .ok (.ldMemVx 0b0010) := by decide
theorem test_decode_ldVxMem : decodeOpcode 0b1111001001100101 = .ok (.ldVxMem 0b0010) := by decide

/-! ### One step (vectors of 95_test_vectors.md) -/

/-- V-C1 -/
theorem test_fetch_at_last_byte :
    (ran { base 0 with pc := 0xFFF }).mode = .faulted ∧
      (ran { base 0 with pc := 0xFFF }).faultCause = .outOfBounds := by decide
/-- V-C3 -/
theorem test_fetch_last_legal :
    (ran (placedAt 0xFFE 0x6005)).readV 0 = 5 ∧ (ran (placedAt 0xFFE 0x6005)).pc = 0x1000 := by decide
/-- V-C4 -/
theorem test_fetch_odd :
    (ran (placedAt 0x201 0x6005)).readV 0 = 5 ∧ (ran (placedAt 0x201 0x6005)).pc = 0x203 := by decide
/-- V-C5 -/
theorem test_fetch_zeroed_memory : (ran (base 0)).faultCause = .invalidOpcode ∧ (ran (base 0)).pc = 0x200 := by decide
/-- V-D1 -/
theorem test_cls :
    (ran { base 0x00E0 with disp := pixels [(0, 0), (63, 31), (10, 10)] }).disp = 0 ∧
      (ran ((base 0x00E0).writeV vf 5)).readV vf = 5 := by decide +kernel
/-- V-F1 -/
theorem test_ret :
    (ran { placedAt 0x300 0x00EE with sp := 1, stack := (Vector.replicate 16 0).set 0 0x204 }).pc = 0x206 ∧
      (ran { placedAt 0x300 0x00EE with sp := 1, stack := (Vector.replicate 16 0).set 0 0x204 }).sp = 0 := by decide
/-- V-F2 -/
theorem test_ret_underflow :
    (ran (base 0x00EE)).faultCause = .stackUnderflow ∧ (ran (base 0x00EE)).pc = 0x200 := by decide
/-- V-F4 -/
theorem test_jp : (ran (base 0x1ABC)).pc = 0xABC := by decide
/-- V-F5 -/
theorem test_jp_unchecked : (ran (base 0x1FFF)).pc = 0xFFF ∧ (ran (base 0x1FFF)).mode = .running := by decide
/-- V-F7 -/
theorem test_call_last_entry :
    (ran { placedAt 0x204 0x2300 with sp := 15 }).stack[15] = 0x204 ∧
      (ran { placedAt 0x204 0x2300 with sp := 15 }).sp = 16 := by decide
/-- V-F8 -/
theorem test_call_overflow :
    (ran { placedAt 0x204 0x2300 with sp := 16 }).faultCause = .stackOverflow ∧
      (ran { placedAt 0x204 0x2300 with sp := 16 }).pc = 0x204 := by decide
/-- V-S1 -/
theorem test_seByte :
    (ran ((base 0x3105).writeV 1 5)).pc = 0x204 ∧ (ran ((base 0x3105).writeV 1 6)).pc = 0x202 := by decide
/-- V-S3 -/
theorem test_skip_past_memory : (ran (placedAt 0xFFE 0x3000)).pc = 0x1002 := by decide
/-- V-S4 -/
theorem test_sneByte :
    (ran ((base 0x4105).writeV 1 5)).pc = 0x202 ∧ (ran ((base 0x4105).writeV 1 6)).pc = 0x204 := by decide
/-- V-S5 -/
theorem test_seReg :
    (ran (((base 0x5120).writeV 1 7).writeV 2 7)).pc = 0x204 ∧
      (ran (((base 0x5120).writeV 1 7).writeV 2 8)).pc = 0x202 := by decide
/-- V-S8 -/
theorem test_sneReg :
    (ran (((base 0x9120).writeV 1 7).writeV 2 7)).pc = 0x202 ∧
      (ran (((base 0x9120).writeV 1 7).writeV 2 8)).pc = 0x204 := by decide
/-- V-L1 -/
theorem test_ldByte : (ran (base 0x6ABC)).readV 10 = 0xBC ∧ (ran (base 0x6ABC)).pc = 0x202 := by decide
/-- V-L3 -/
theorem test_addByte :
    (ran (((base 0x7203).writeV 2 0xFE).writeV vf 9)).readV 2 = 1 ∧
      (ran (((base 0x7203).writeV 2 0xFE).writeV vf 9)).readV vf = 9 := by decide
/-- V-L4 -/
theorem test_addByte_vf : (ran ((base 0x7F02).writeV vf 0xFF)).readV vf = 1 := by decide
/-- V-L5 -/
theorem test_ldI : (ran (base 0xAFFF)).i = 0xFFF := by decide
/-- V-F9 -/
theorem test_jpV0 : (ran ((base 0xB300).writeV 0 4)).pc = 0x304 := by decide
/-- V-F10 -/
theorem test_jpV0_no_wrap : (ran ((base 0xBFFF).writeV 0 0xFF)).pc = 0x10FE := by decide
/-- V-L6 -/
theorem test_rnd_masked : ((base 0xC30F).randomInto 3 0x0F 0xB7).readV 3 = 7 := by decide
/-- R128: each draw takes the next free value -/
theorem test_rnd_counts : (ran (base 0xC3FF)).draws = 1 ∧ (ran (base 0xC3FF)).pc = 0x202 := by decide
/-- V-A1 -/
theorem test_ldReg :
    (ran (regs (base 0x8010) 0x11 0x2A 7)).readV 0 = 0x2A ∧
      (ran (regs (base 0x8010) 0x11 0x2A 7)).readV vf = 7 := by decide
/-- V-A2 -/
theorem test_orReg :
    (ran (regs (base 0x8011) 0xF0 0x0F 7)).readV 0 = 0xFF ∧
      (ran (regs (base 0x8011) 0xF0 0x0F 7)).readV vf = 7 := by decide
/-- V-A3 -/
theorem test_andReg :
    (ran (regs (base 0x8012) 0xF3 0x3C 7)).readV 0 = 0x30 ∧
      (ran (regs (base 0x8012) 0xF3 0x3C 7)).readV vf = 7 := by decide
/-- V-A4 -/
theorem test_xorReg :
    (ran (regs (base 0x8013) 0xFF 0x0F 7)).readV 0 = 0xF0 ∧
      (ran (regs (base 0x8013) 0xFF 0x0F 7)).readV vf = 7 := by decide
/-- V-A5 -/
theorem test_addReg_carry :
    (ran (regs (base 0x8014) 0xFF 0x01 7)).readV 0 = 0x00 ∧
      (ran (regs (base 0x8014) 0xFF 0x01 7)).readV vf = 1 := by decide
/-- V-A25 -/
theorem test_addReg_into_vf : (ran (regs (base 0x8F14) 0 2 3)).readV vf = 0 := by decide
/-- V-A9 -/
theorem test_subReg_borrow :
    (ran (regs (base 0x8015) 0x01 0x02 7)).readV 0 = 0xFF ∧
      (ran (regs (base 0x8015) 0x01 0x02 7)).readV vf = 0 := by decide
/-- V-A11 -/
theorem test_subReg_equal :
    (ran (regs (base 0x8015) 0x10 0x10 7)).readV 0 = 0x00 ∧
      (ran (regs (base 0x8015) 0x10 0x10 7)).readV vf = 1 := by decide
/-- V-A13 -/
theorem test_shr :
    (ran (regs (base 0x8016) 0x05 0xAA 7)).readV 0 = 0x02 ∧
      (ran (regs (base 0x8016) 0x05 0xAA 7)).readV vf = 1 := by decide
/-- V-A30 -/
theorem test_shr_vf :
    (ran (regs (base 0x8F06) 0 0 3)).readV vf = 1 ∧ (ran (regs (base 0x8F06) 0 0 2)).readV vf = 0 := by decide
/-- V-A17 -/
theorem test_subnReg :
    (ran (regs (base 0x8017) 0x02 0x05 7)).readV 0 = 0x03 ∧
      (ran (regs (base 0x8017) 0x02 0x05 7)).readV vf = 1 := by decide
/-- V-A18 -/
theorem test_subnReg_borrow :
    (ran (regs (base 0x8017) 0x05 0x02 7)).readV 0 = 0xFD ∧
      (ran (regs (base 0x8017) 0x05 0x02 7)).readV vf = 0 := by decide
/-- V-A20 -/
theorem test_shl :
    (ran (regs (base 0x801E) 0x81 0x33 7)).readV 0 = 0x02 ∧
      (ran (regs (base 0x801E) 0x81 0x33 7)).readV vf = 1 := by decide
/-- V-A21 -/
theorem test_shl_no_bit :
    (ran (regs (base 0x801E) 0x40 0x00 7)).readV 0 = 0x80 ∧
      (ran (regs (base 0x801E) 0x40 0x00 7)).readV vf = 0 := by decide
/-- T8b: wraps both ways -/
theorem test_drw_wraps :
    (ran (atI (stored (regs (base 0xD012) 63 31 0) 0x300 [0xFF, 0xFF]) 0x300)).disp = pixels (((List.range 7).map (·, 31)) ++ ((List.range 7).map (·, 0)) ++ [(63, 31), (63, 0)]) := by decide +kernel
/-- V-D9 -/
theorem test_drw_out_of_memory :
    (ran ({ atI ((base 0xD012).writeV vf 1) 0xFFF with disp := pixels [(0, 0)] })).faultCause = .dataOutOfBounds ∧
      (ran ({ atI ((base 0xD012).writeV vf 1) 0xFFF with disp := pixels [(0, 0)] })).readV vf = 1 := by decide +kernel
/-- V-K1 -/
theorem test_skp :
    (ran { (base 0xE29E).writeV 2 10 with keys := 0x0400 }).pc = 0x204 ∧
      (ran { (base 0xE29E).writeV 2 10 with keys := 0x0200 }).pc = 0x202 := by decide
/-- V-K2 -/
theorem test_sknp :
    (ran { (base 0xE2A1).writeV 2 10 with keys := 0x0400 }).pc = 0x202 ∧
      (ran { (base 0xE2A1).writeV 2 10 with keys := 0x0200 }).pc = 0x204 := by decide
/-- V-K3 -/
theorem test_skp_out_of_range :
    (ran { (base 0xE29E).writeV 2 16 with keys := 1 }).faultCause = .keyOutOfRange := by decide
/-- V-K4 -/
theorem test_sknp_out_of_range : (ran ((base 0xE2A1).writeV 2 0xFF)).faultCause = .keyOutOfRange := by decide
/-- V-K6 -/
theorem test_ldVxK_enters :
    (ran { (base 0xF30A).writeV 3 0x55 with keys := 0x10 }).mode = .awaitingKey ∧
      (ran { (base 0xF30A).writeV 3 0x55 with keys := 0x10 }).waitReg = 3 ∧
      (ran { (base 0xF30A).writeV 3 0x55 with keys := 0x10 }).readV 3 = 0x55 := by decide
/-- V-K8 -/
theorem test_ldVxK_completes :
    (ran { base 0xF30A with mode := .awaitingKey, waitReg := 3, keys := 0x280 }).readV 3 = 7 ∧
      (ran { base 0xF30A with mode := .awaitingKey, waitReg := 3, keys := 0x280 }).pc = 0x202 ∧
      (ran { base 0xF30A with mode := .awaitingKey, waitReg := 3, keys := 0x280 }).mode = .running := by decide
/-- V-M1 -/
theorem test_ldVxDt :
    (ran ((base 0xF407).writeDt 0x3C)).readV 4 = 0x3C ∧ (ran ((base 0xF407).writeDt 0x3C)).dt = 0x3C := by decide
/-- V-M2 -/
theorem test_ldDtVx : (ran ((base 0xF415).writeV 4 5)).dt = 5 ∧ (ran ((base 0xF415).writeV 4 5)).st = 0 := by decide
/-- V-M3 -/
theorem test_ldStVx : (ran ((base 0xF418).writeV 4 2)).st = 2 ∧ (ran ((base 0xF418).writeV 4 2)).dt = 0 := by decide
/-- V-M4 -/
theorem test_addIVx_no_wrap : (ran (atI ((base 0xF11E).writeV 1 2) 0x0FFF)).i = 0x1001 := by decide
/-- V-M5 -/
theorem test_addIVx_wraps : (ran (atI ((base 0xF11E).writeV 1 2) 0xFFFF)).i = 1 := by decide
/-- V-M6 -/
theorem test_ldFVx :
    (ran ((base 0xF229).writeV 2 0x0B)).i = 0x37 ∧ (ran ((base 0xF229).writeV 2 0x1A)).i = 0x32 := by decide
/-- V-M9 -/
theorem test_ldBVx : (ran (atI ((base 0xF033).writeV 0 255) 0xFFD)).mem.bytes 0xFFD 3 = [2, 5, 5] := by decide
/-- V-M10 -/
theorem test_ldBVx_out_of_memory :
    (ran (atI ((base 0xF033).writeV 0 255) 0xFFE)).faultCause = .dataOutOfBounds ∧
      (ran (atI ((base 0xF033).writeV 0 255) 0xFFE)).mem.byte 0xFFE = 0 := by decide
/-- V-M11 -/
theorem test_ldMemVx :
    (ran (atI (((regs (base 0xF255) 1 2 0).writeV 2 3).writeV 3 4) 0x300)).mem.bytes 0x300 4 = [1, 2, 3, 0] ∧
      (ran (atI (((regs (base 0xF255) 1 2 0).writeV 2 3).writeV 3 4) 0x300)).i = 0x303 := by decide
/-- V-M13 -/
theorem test_ldMemVx_out_of_memory :
    (ran (atI ((base 0xF155).writeV 0 0xAB) 0xFFF)).faultCause = .dataOutOfBounds ∧
      (ran (atI ((base 0xF155).writeV 0 0xAB) 0xFFF)).mem.byte 0xFFF = 0 := by decide
/-- V-M15 -/
theorem test_ldVxMem :
    (ran (atI (stored (base 0xF265) 0x300 [9, 8, 7, 6]) 0x300)).readV 2 = 7 ∧
      (ran (atI (stored (base 0xF265) 0x300 [9, 8, 7, 6]) 0x300)).readV 3 = 0 := by decide
/-- V-M16, with the default font of R23 (log entry 4) -/
theorem test_ldVxMem_all :
    (ran (base 0xFF65)).readV 14 = 0xF0 ∧ (ran (base 0xFF65)).readV vf = 0xF0 ∧
      (ran (base 0xFF65)).i = 0x10 := by decide

/-! ### The frame -/

/-- R162, R161: pause from a key wait, keys refreshed -/
theorem test_pause_from_wait :
    (ran { State.reset with mode := .awaitingKey, inputs := [⟨0x200, true, false⟩] }).mode = .paused ∧
      (ran { State.reset with mode := .awaitingKey, inputs := [⟨0x200, true, false⟩] }).keys = 0x200 := by decide
/-- R163: reset wins over the toggle and leaves Faulted -/
theorem test_reset_wins :
    (ran { State.reset with mode := .faulted, faultCause := .invalidOpcode, pc := 0x204, inputs := [⟨1, true, true⟩] }).mode = .running ∧
      (ran { State.reset with mode := .faulted, faultCause := .invalidOpcode, pc := 0x204, inputs := [⟨1, true, true⟩] }).pc = 0x200 ∧
      (ran { State.reset with mode := .faulted, faultCause := .invalidOpcode, pc := 0x204, inputs := [⟨1, true, true⟩] }).keys = 1 := by decide
/-- R165, R166: decay, floored, presented after it -/
theorem test_frame_end :
    (ran { State.reset with phase := .cycles 0, dt := 1, st := 0, mode := .paused }).dt = 0 ∧
      (ran { State.reset with phase := .cycles 0, dt := 1, st := 0, mode := .paused }).st = 0 ∧
      (ran { State.reset with phase := .cycles 0, dt := 1, st := 0, mode := .paused }).out.mode = 3 ∧
      (ran { State.reset with phase := .cycles 0, dt := 1, st := 0, mode := .paused }).phase = .frameStart := by decide
/-- R164: a fault aborts the remaining cycles -/
theorem test_fault_ends_the_frame :
    (ran { base 0 with phase := .cycles 9, mode := .faulted, faultCause := .invalidOpcode }).out.mode = 2 := by decide
/-- R200: the load of an image -/
theorem test_load_image :
    (State.load ⟨[0x12, 0x00], defaultFont, 15⟩).mem.bytes 0x1FF 4 = [0, 0x12, 0, 0] := by decide
/-- R8, R23: the font is a parameter, here another one -/
theorem test_load_font :
    (State.load ⟨[], Vector.replicate 80 0xAA, 15⟩).mem.bytes 0x4E 3 = [0xAA, 0xAA, 0] ∧
      State.reset.mem.byte 0 = 0xF0 := by decide +kernel
/-- R61: the last byte of memory is in the canonical form, and a byte equal to its reset content is dropped from it -/
theorem test_put_canonical :
    (Memory.putList [] 0xFFE [1, 2]).wf = true ∧ Memory.put [(0x300, 5)] 0x300 0 = [] := by decide

/-! ### Witnesses of the hypotheses of the statements -/

theorem witness_EveryTableRowDecodesWithItsFields : ∀ r ∈ opcodeRows, r.pattern &&& r.mask = r.pattern := by decide
theorem witness_EachOpcodeSelectsOneRowOrIsInvalid : fieldF 0x1000 = 0x1 ∧ fieldF 0xDFFF = 0xD := by decide
theorem witness_EncodeOfDecodeIsTheOpcode :
    decodeOpcode 0x00E0 = .ok .cls ∧ decodeOpcode 0xFF65 = .ok (.ldVxMem 0xF) :=
  by decide
theorem witness_StepRunsTheDecodedInstruction :
    (base 0x8014).phase = .cycles 1 ∧ (base 0x8014).mode = .running ∧
      (base 0x8014).fetch = some [0x80, 0x14] ∧ decode [0x80, 0x14] = .ok (.addReg 0 1) :=
  by decide
theorem witness_PlacedWordIsRunByTheNextStep :
    State.reset.mem.wf = true ∧ decodeTableWord 16 0xF265 = some (.ldVxMem 2) :=
  by decide
theorem witness_FetchTakesTheHighByteFromTheLowerAddress :
    (placedAt 0xFFE 0x6005).mode = .running ∧ (placedAt 0xFFE 0x6005).pc.toNat = 0xFFE ∧
      (placedAt 0xFFE 0x6005).OpcodeAtPc 0x6005 ∧
      decodeOpcode 0x6005 = .ok (.ldByte 0 5) :=
  ⟨by decide, by decide, show _ = _ by decide, by decide⟩
theorem witness_FetchBeyondMemoryRaisesOutOfBounds :
    { base 0 with pc := 0xFFF }.mode = .running ∧ { base 0 with pc := 0xFFF }.pc.toNat > 0xFFE ∧
    (placedAt 0xFFE 0x6005).faultCause = .none ∧ (placedAt 0xFFE 0x6005).pc.toNat ≤ 0xFFE ∧
      ∃ t, cycle (placedAt 0xFFE 0x6005) = .next t :=
  ⟨rfl, by decide, rfl, by decide, _, rfl⟩
theorem witness_UnmatchedOpcodeRaisesInvalidOpcode :
    (base 0x8128).OpcodeAtPc 0x8128 ∧ (∀ r ∈ opcodeRows, (0x8128 : Opcode) &&& r.mask ≠ r.pattern) ∧
      (base 0x6005).OpcodeAtPc 0x6005 ∧ (∃ r ∈ opcodeRows, (0x6005 : Opcode) &&& r.mask = r.pattern) ∧
      (base 0x8128).pc.toNat ≤ 0xFFE ∧ (base 0x6005).faultCause = .none ∧ ∃ t, cycle (base 0x6005) = .next t :=
  ⟨show _ = _ by decide, by decide, show _ = _ by decide, by decide, by decide, by decide, _, rfl⟩
theorem witness_CycleIsGatedByTheMode :
    ∀ m ∈ [Mode.faulted, .paused, .awaitingKey], { base 0x6005 with mode := m }.mode = m :=
  by decide
theorem witness_KeyWaitTakesTheLowestPressedKey :
    { base 0 with mode := .awaitingKey, keys := 0x8000 }.keys.getLsbD 15 = true ∧
      (∀ j, j < 15 → (0x8000 : BitVec 16).getLsbD j = false) ∧ (1 : BitVec 16).getLsbD 0 = true ∧
      ∀ k, k < 16 → (0 : BitVec 16).getLsbD k = false :=
  by decide
/-- Each kind of the table of R107: advance, skip taken and not, jumps, return, hold. -/
theorem witness_EveryInstructionSetsPcAsTheTableSays :
    (∃ t, exec .cls (base 0) = .next t ∧ t.mode ≠ .faulted ∧ t.pc.toNat = 0x202) ∧
      (∃ t, exec (.seByte 0 0) (base 0) = .next t ∧ t.mode ≠ .faulted ∧ t.pc.toNat = 0x204) ∧
      (∃ t, exec (.skp 0) (base 0) = .next t ∧ t.mode ≠ .faulted ∧ t.pc.toNat = 0x202) ∧
      (∃ t, exec (.jp 0xABC) (base 0) = .next t ∧ t.mode ≠ .faulted ∧ t.pc.toNat = 0xABC) ∧
      (∃ t, exec (.call 0xFFF) { base 0 with sp := 15 } = .next t ∧ t.mode ≠ .faulted ∧ t.stack[15] = 0x200) ∧
      (∃ t, exec (.jpV0 0xFFF) ((base 0).writeV 0 0xFF) = .next t ∧ t.mode ≠ .faulted ∧ t.pc.toNat = 0x10FE) ∧
      (∃ t, exec .ret { base 0 with sp := 1, stack := Vector.replicate 16 0x204 } = .next t ∧ t.mode ≠ .faulted ∧
        t.pc.toNat = 0x206) ∧
      ∃ t, exec (.ldVxK 3) (base 0) = .next t ∧ t.mode ≠ .faulted ∧ t.pc.toNat = 0x200 :=
  ⟨⟨_, rfl, by decide, by decide⟩, ⟨_, rfl, by decide, by decide⟩, ⟨_, rfl, by decide, by decide⟩,
    ⟨_, rfl, by decide, by decide⟩, ⟨_, rfl, by decide, by decide⟩, ⟨_, rfl, by decide, by decide⟩,
    ⟨_, rfl, by decide, by decide⟩, _, rfl, by decide, by decide⟩
theorem witness_FaultsAreExactlyTheMatrix :
    faultOf (base 0) .ret = some .stackUnderflow ∧
      faultOf { base 0 with sp := 16 } (.call 0) = some .stackOverflow ∧
      faultOf (atI (base 0) 0xFFF) (.drw 0 0 2) = some .dataOutOfBounds ∧
      faultOf (atI (base 0) 0xFFE) (.ldBVx 0) = some .dataOutOfBounds ∧
      faultOf (atI (base 0) 0xFFF) (.ldMemVx 1) = some .dataOutOfBounds ∧
      faultOf (atI (base 0) 0xFFF) (.ldVxMem 1) = some .dataOutOfBounds ∧
      faultOf ((base 0).writeV 2 16) (.skp 2) = some .keyOutOfRange ∧
      faultOf ((base 0).writeV 2 16) (.sknp 2) = some .keyOutOfRange :=
  by decide
theorem witness_InstructionsThatDoNotFault :
    (base 0).mode = .running ∧ faultOf { base 0 with sp := 1 } .ret = none ∧
      faultOf { base 0 with sp := 15 } (.call 0) = none ∧ faultOf (atI (base 0) 0xFFE) (.drw 0 0 2) = none ∧
      faultOf (atI (base 0) 0xFFFF) (.drw 0 0 0) = none ∧ faultOf (atI (base 0) 0xFFD) (.ldBVx 0) = none ∧
      faultOf (atI (base 0) 0xFFE) (.ldMemVx 1) = none ∧ faultOf (atI (base 0) 0xFFE) (.ldVxMem 1) = none ∧
      faultOf ((base 0).writeV 2 15) (.skp 2) = none ∧ faultOf ((base 0).writeV 2 15) (.sknp 2) = none ∧
      faultOf (base 0) (.rnd 0 0) = none :=
  by decide
/-- A flag write, a fault, a key wait and a jump: the clauses on registers, cause, mode and `PC` each have their case. -/
theorem witness_OnlyTheNamedInstructionsWriteEachPieceOfState :
    (∃ t, exec (.addReg 0 1) (regs (base 0) 0xFF 1 0) = .next t ∧ t.readV vf = 1 ∧ ¬(Instr.addReg 0 1).WritesV 1) ∧
      (∃ t, exec .ret (base 0) = .next t ∧ t.faultCause ≠ .none) ∧
      (∃ t, exec (.ldVxK 3) (base 0) = .next t ∧ t.mode ≠ .running) ∧
      ∃ t, exec (.jp 0xABC) (base 0) = .next t ∧ t.pc ≠ (base 0).pc :=
  ⟨⟨_, rfl, by decide, by rintro (h | h) <;> cases h⟩, ⟨_, rfl, by decide⟩, ⟨_, rfl, by decide⟩, _, rfl, by decide⟩
theorem witness_NextFetchSeesTheStore :
    (placedAt 0xFFC 0xF155).mem.wf = true ∧ (placedAt 0xFFC 0xF155).pc.toNat ≤ 0xFFC ∧
      (atI (placedAt 0xFFC 0xF155) 0xFFE).i.toNat + (1 : Nibble).toNat ≤ 0xFFF ∧
      (atI (placedAt 0xFFB 0xF033) 0xFFD).i.toNat + 2 ≤ 0xFFF :=
  by decide
/-- By hand from R71: `F155` at 0x200 with `I` = 0x202 stores `V[0]`, `V[1]` over the next opcode. -/
theorem test_store_over_next :
    (ran (atI (regs (base 0xF155) 0x62 0x05 0) 0x202)).fetch = some [0x62, 0x05] := by decide

/-- The longest legal image (R8). -/
theorem witness_LegalParameters : Params.Legal ⟨List.replicate 3584 0, defaultFont, 15⟩ := by
  show (List.replicate 3584 (0 : Byte)).length ≤ 3584
  rw [List.length_replicate]

/-- The invariant holds of a state at the edge of its bounds: `PC` at 0x10FE, the stack full of 0xFFE, Faulted. -/
theorem witness_EveryStepKeepsTheInvariant : State.Inv { State.reset with
    pc := 0x10FE, sp := 16, stack := Vector.replicate 16 0xFFE, mode := .faulted, faultCause := .outOfBounds } where
  inBounds := ⟨by decide, by decide, by simp⟩
  memory := rfl
  waitPc h := by cases h
  params := by simp [Params.Legal, State.reset]
  phase k h := by cases h

/-- A waiting state meets it too, inside a frame. -/
theorem witness_InvariantWhileWaiting : State.Inv { State.reset with
    pc := 0xFFE, mode := .awaitingKey, phase := .cycles 15 } where
  inBounds := ⟨by decide, by decide, by simp [State.reset]⟩
  memory := rfl
  waitPc _ := by decide
  params := by simp [Params.Legal, State.reset]
  phase k h := by cases h; decide

theorem witness_StepOfTheInvariant : ∃ t, step State.reset = .next t := ⟨_, rfl⟩
theorem witness_StepsOfAFrameAreTheFrameEvent : State.reset.phase = .frameStart := rfl

/-- The inputs of frames in which nothing is pressed and nothing requested. -/
def quiet : Nat → FrameInput := fun _ => ⟨0, false, false⟩

/-- The three ways of R205, on quiet frames. -/
theorem witness_FinishedPrograms : (base 0x1200).AtSelfJump ∧
    State.EndlessKeyWait quiet { base 0xF30A with mode := .awaitingKey } ∧
    State.Finished quiet { base 0 with mode := .faulted, faultCause := .invalidOpcode } ∧ NoControls quiet :=
  ⟨⟨rfl, 0x200, by decide, by decide⟩, ⟨rfl, rfl, fun _ => rfl⟩, .inr (.inr rfl), fun _ => ⟨rfl, rfl⟩⟩

/-- A key in the next frame ends the wait, so the program has not finished. -/
theorem test_not_finished_when_a_key_comes :
    ¬State.Finished (fun _ => ⟨1, false, false⟩) { base 0xF30A with mode := .awaitingKey } := by
  rintro (⟨h, -⟩ | ⟨-, -, h⟩ | h)
  · cases h
  · exact absurd (h 0) (by decide)
  · cases h

theorem witness_ResetRequestReloadsTheMachine :
    State.reset.phase = .frameStart ∧
      State.nextInput { State.reset with inputs := [⟨0xFFFF, true, true⟩] } = ⟨0xFFFF, true, true⟩ :=
  ⟨rfl, rfl⟩
theorem witness_PauseToggleFlipsTheModeOnly :
    ∀ m ∈ [Mode.running, .awaitingKey, .paused, .faulted], ∀ b ∈ [true, false],
      { State.reset with mode := m, inputs := [⟨0, b, false⟩] }.nextInput = ⟨0, b, false⟩ ∧
      { State.reset with mode := m, inputs := [⟨0, b, false⟩] }.mode = m :=
  by decide
theorem witness_KeysChangeOnlyAtTheStartOfAFrame :
    (∃ t, step State.reset = .next t) ∧ (base 0x1200).phase ≠ .frameStart ∧ ∃ t, step (base 0x1200) = .next t :=
  ⟨⟨_, rfl⟩, by decide, _, rfl⟩

/-- The three ways a frame's cycles end (R164). -/
theorem witness_AtFrameEnd : State.AtFrameEnd { base 0 with phase := .cycles 0 } ∧
    State.AtFrameEnd { base 0 with phase := .cycles 1, mode := .faulted } ∧
    State.AtFrameEnd { base 0 with phase := .cycles 15, mode := .paused } :=
  ⟨.inl rfl, .inr ⟨0, rfl, .inl rfl⟩, .inr ⟨14, rfl, .inr rfl⟩⟩

/-- Not the end of a frame: its start, and a Running state with a cycle due. -/
theorem witness_NotAtFrameEnd : ¬State.reset.AtFrameEnd ∧ ¬(base 0x1200).AtFrameEnd := by
  constructor
  · rintro (h | ⟨k, h, -⟩) <;> cases h
  · rintro (h | ⟨k, -, h | h⟩) <;> cases h

/-- Every mode and every cause at the end of a frame. -/
theorem witness_OutputsArePresentedAtTheEndOfAFrame (m : Mode) (f : FaultCause) :
    State.AtFrameEnd { base 0 with phase := .cycles 0, mode := m, faultCause := f } := .inl rfl

theorem witness_FaultedIsAbsorbingUntilReset :
    { State.reset with mode := .faulted }.mode = .faulted ∧ { base 0 with mode := .faulted }.phase ≠ .frameStart ∧
      State.nextInput { State.reset with mode := .faulted, inputs := [⟨1, true, false⟩] } = ⟨1, true, false⟩ :=
  by decide
theorem witness_ModeChangesOnlyAsTheTableSays :
    (∃ t, step (base 0xF30A) = .next t ∧ t.mode = .awaitingKey) ∧ ∃ t, step (base 0) = .next t ∧ t.mode = .faulted :=
  ⟨⟨_, rfl, rfl⟩, _, rfl, by decide⟩
theorem witness_JumpSetsPcToTheAddress : (base 0x1200).pc.toNat = (0x200 : Addr).toNat := by decide
theorem witness_CallPushesItsOwnAddress :
    { base 0x2300 with sp := 15 }.sp.val < 16 ∧ { base 0x2300 with sp := 16 }.sp.val = 16 :=
  by decide
theorem witness_ReturnContinuesAfterThePoppedCall :
    { base 0x00EE with sp := 16 }.sp.val = 15 + 1 ∧ { base 0x00EE with sp := 1 }.sp.val = 0 + 1 ∧
      (base 0x00EE).sp.val = 0 :=
  by decide
theorem witness_CallThenReturnContinuesAfterTheCall :
    { placedAt 0xFFE 0x2300 with sp := 15 }.sp.val < 16 ∧ { placedAt 0xFFE 0x2300 with sp := 15 }.pc.toNat ≤ 0xFFE ∧
      ∃ t, exec (.call 0x300) { placedAt 0xFFE 0x2300 with sp := 15 } = .next t ∧ t.sp = 16 :=
  ⟨by decide, by decide, _, rfl, by decide⟩
theorem witness_RegisterOtherThanVf : (0 : Nibble) ≠ vf ∧ (0xE : Nibble) ≠ vf := by decide
theorem witness_DrawInvertsTheCoveredPixels :
    (0 : Nibble).toNat = 0 ∧ (atI (base 0) 0xFFF).i.toNat + (1 : Nibble).toNat - 1 ≤ 0xFFF ∧
      0 < (1 : Nibble).toNat ∧ (atI (base 0) 0x1000).i.toNat + (1 : Nibble).toNat - 1 > 0xFFF :=
  by decide

/-- A sprite with a set bit, drawn over a clear display (no collision) and over a set pixel (collision); and one with no set
bit. -/
theorem witness_SpriteCovers : (atI (stored (base 0xD011) 0x300 [0x80]) 0x300).SpriteCovers 0 1 1 0 0 ∧
    Display.pixel (pixels [(0, 0)]) 0 0 = true ∧ ¬(base 0xD010).SpriteCovers 0 1 0 0 0 := by
  refine ⟨⟨0, 0, by decide, by decide, by decide, by decide, by decide⟩, by decide +kernel, ?_⟩
  rintro ⟨r, -, h, -⟩
  exact absurd h (by simp)

/-- The sprite 0xC0 over one set pixel: the first draw collides on it and turns the other on; the state between the draws is
the first's with `PC` put back, as in T6. -/
theorem witness_DrawingTwiceRestoresTheDisplay :
    let s := { atI (stored (base 0xD011) 0x300 [0xC0]) 0x300 with disp := pixels [(0, 0)] }
    let t := ran s
    let u := { t with pc := 0x200 }
    (s.i.toNat + (1 : Nibble).toNat - 1 ≤ 0xFFF ∧ exec (.drw 0 1 1) s = .next (s.drawSprite 0 1 [0xC0])) ∧
      (u.disp = t.disp ∧ u.i = s.i ∧ u.mem = s.mem ∧ u.readV 0 = s.readV 0 ∧ u.readV 1 = s.readV 1) ∧
    t.readV vf = 1 ∧ s.disp.pixel 1 0 = false ∧ s.mem.byte 0x300 = 0xC0 ∧
      (ran { u with phase := .cycles 1 }).readV vf = 1 :=
  ⟨⟨by decide, rfl⟩, by decide +kernel, by decide +kernel⟩
theorem witness_KeySkipsTestTheKeyInTheRegister :
    (((base 0).writeV 2 15).readV 2).toNat ≤ 15 ∧ (((base 0).writeV 2 16).readV 2).toNat > 15 :=
  by decide
theorem witness_StoreDecimalDigitsAtIndex :
    (base 0xF033).mem.wf = true ∧ (atI (base 0xF033) 0xFFD).i.toNat + 2 ≤ 0xFFF ∧
      (atI (base 0xF033) 0xFFE).i.toNat + 2 > 0xFFF :=
  by decide
theorem witness_StoreAndLoadRegistersAtIndex :
    (base 0xFF55).mem.wf = true ∧ (atI (base 0xFF55) 0xFF0).i.toNat + (0xF : Nibble).toNat ≤ 0xFFF ∧
      (atI (base 0xFF55) 0xFF1).i.toNat + (0xF : Nibble).toNat > 0xFFF :=
  by decide

end Sys2Proof.Machine.Tests
end

section
/-! Proofs about the encoding (30_encoding.md R83, R92): the operand fields of an encoded opcode, what the decoder reads
from an opcode, and the rows of R86. -/

namespace Sys2Proof

open Machine

/-! ### The encoding of a row from its match word -/

/-- FIXED and NNN rows: the match word with `nnn` in the low bits. -/
theorem encodeNNN_of_match {f : Nibble} {m : Opcode} (hm : encodeNNN f 0 = m) (nnn : Addr) :
    encodeNNN f nnn = m ||| nnn.setWidth 16 := by
  simp [← hm, encodeNNN]

/-- XKK rows: the match word with `x` and `kk`. -/
theorem encodeXKK_of_match {f : Nibble} {m : Opcode} (hm : encodeXKK f 0 0 = m) (x : Nibble) (kk : Byte) :
    encodeXKK f x kk = m ||| atX x ||| kk.setWidth 16 := by
  simp [← hm, encodeXKK, atX]

/-- XSUB rows: the sub-opcode is in the match word, with `x` beside it. -/
theorem encodeXKK_of_match_sub {f : Nibble} {sub : Byte} {m : Opcode} (hm : encodeXKK f 0 sub = m) (x : Nibble) :
    encodeXKK f x sub = m ||| atX x := by
  simp [← hm, encodeXKK, atX, BitVec.or_assoc, BitVec.or_comm]

/-- XYN rows with a sub-opcode in the match word, `x` and `y` beside it. -/
theorem encodeXYN_of_match_sub {f sub : Nibble} {m : Opcode} (hm : encodeXYN f 0 0 sub = m) (x y : Nibble) :
    encodeXYN f x y sub = m ||| atX x ||| atY y := by
  have hmatch : encodeXYN f 0 0 sub = f.setWidth 16 <<< 12 ||| sub.setWidth 16 := by simp [encodeXYN]
  rw [← hm, hmatch, encodeXYN, atX, atY]
  ac_rfl

/-- The XYN row with a count: the match word with `x`, `y` and `n`. -/
theorem encodeXYN_of_match {f : Nibble} {m : Opcode} (hm : encodeXYN f 0 0 0 = m) (x y n : Nibble) :
    encodeXYN f x y n = m ||| atX x ||| atY y ||| n.setWidth 16 := by
  simp [← hm, encodeXYN, atX, atY]

/-- Settles O7, by the shape of each row: its match word is the encoding with every operand 0. -/
theorem encodingPlacesOperandsInTheirFields : Obligations.EncodingPlacesOperandsInTheirFields := by
  intro x y n kk nnn
  have hNNN {f m} (hm : encodeNNN f 0 = m) := encodeNNN_of_match hm nnn
  have hXKK {f m} (hm : encodeXKK f 0 0 = m) := encodeXKK_of_match hm x kk
  have hXSUB {f sub m} (hm : encodeXKK f 0 sub = m) := encodeXKK_of_match_sub hm x
  have hXY {f sub m} (hm : encodeXYN f 0 0 sub = m) := encodeXYN_of_match_sub hm x y
  exact ⟨rfl, rfl,
    hNNN rfl, hNNN rfl, hNNN rfl, hNNN rfl,
    hXKK rfl, hXKK rfl, hXKK rfl, hXKK rfl, hXKK rfl,
    hXY rfl, hXY rfl, hXY rfl, hXY rfl, hXY rfl, hXY rfl, hXY rfl, hXY rfl, hXY rfl, hXY rfl, hXY rfl,
    encodeXYN_of_match rfl x y n,
    hXSUB rfl, hXSUB rfl, hXSUB rfl, hXSUB rfl, hXSUB rfl, hXSUB rfl, hXSUB rfl, hXSUB rfl, hXSUB rfl, hXSUB rfl,
    hXSUB rfl⟩

/-! ### What the decoder reads from an opcode -/

/-- What a decoding of `op` may answer: an instruction whose opcode is `op`, or that `op` is invalid. -/
def Decoded.Reads (op : Opcode) : Decoded → Prop
  | .ok i => encodeOpcode i = op
  | .invalidOpcode op' => op' = op
  | .truncated => False

theorem encodeNNN_of_fieldF {op : Opcode} {f : Nibble} (hf : (fieldF op).toNat = f.toNat) :
    encodeNNN f (fieldNNN op) = op := by
  rw [← BitVec.eq_of_toNat_eq hf, encodeNNN_fields]

theorem encodeXKK_of_fieldF {op : Opcode} {f : Nibble} (hf : (fieldF op).toNat = f.toNat) :
    encodeXKK f (fieldX op) (fieldKK op) = op := by
  rw [← BitVec.eq_of_toNat_eq hf, encodeXKK_fields]

theorem encodeXYN_of_fieldF {op : Opcode} {f : Nibble} (hf : (fieldF op).toNat = f.toNat) :
    encodeXYN f (fieldX op) (fieldY op) (fieldN op) = op := by
  rw [← BitVec.eq_of_toNat_eq hf, encodeXYN_fields]

theorem encodeXKK_of_fieldKK {op : Opcode} {f : Nibble} {sub : Byte} (hf : (fieldF op).toNat = f.toNat)
    (hs : (fieldKK op).toNat = sub.toNat) : encodeXKK f (fieldX op) sub = op := by
  rw [← BitVec.eq_of_toNat_eq hs, encodeXKK_of_fieldF hf]

theorem encodeXYN_of_fieldN {op : Opcode} {f sub : Nibble} (hf : (fieldF op).toNat = f.toNat)
    (hs : (fieldN op).toNat = sub.toNat) : encodeXYN f (fieldX op) (fieldY op) sub = op := by
  rw [← BitVec.eq_of_toNat_eq hs, encodeXYN_of_fieldF hf]

theorem decodeAlu_reads {op : Opcode} (hf : (fieldF op).toNat = 0x8) : (decodeAlu op).Reads op := by
  unfold decodeAlu
  split
  case h_10 => rfl
  all_goals next hn => exact encodeXYN_of_fieldN hf hn

theorem decodeKeys_reads {op : Opcode} (hf : (fieldF op).toNat = 0xE) : (decodeKeys op).Reads op := by
  unfold decodeKeys
  split
  case h_3 => rfl
  all_goals next hk => exact encodeXKK_of_fieldKK hf hk

theorem decodeMisc_reads {op : Opcode} (hf : (fieldF op).toNat = 0xF) : (decodeMisc op).Reads op := by
  unfold decodeMisc
  split
  case h_10 => rfl
  all_goals next hk => exact encodeXKK_of_fieldKK hf hk

/-- All a decoding can answer (R83, R84). -/
theorem decodeOpcode_reads (op : Opcode) : (decodeOpcode op).Reads op := by
  unfold decodeOpcode
  split
  case h_1 => -- family 0
    split
    · next h => exact h.symm
    · split
      · next h => exact h.symm
      · rfl
  case h_2 hf | h_3 hf | h_11 hf | h_12 hf => exact encodeNNN_of_fieldF hf
  case h_4 hf | h_5 hf | h_7 hf | h_8 hf | h_13 hf => exact encodeXKK_of_fieldF hf
  case h_6 hf | h_10 hf => -- families 5 and 9
    split
    · next hn => exact encodeXYN_of_fieldN hf (congrArg BitVec.toNat hn)
    · rfl
  case h_9 hf => exact decodeAlu_reads hf
  case h_14 hf => exact encodeXYN_of_fieldF hf
  case h_15 hf => exact decodeKeys_reads hf
  case h_16 hf => exact decodeMisc_reads hf
  case h_17 => rfl

/-- The opcode of a decoded instruction is the one it was decoded from. -/
theorem encodeOpcode_of_decodeOpcode {op : Opcode} {i : Instr} (h : decodeOpcode op = .ok i) : encodeOpcode i = op := by
  have hr := decodeOpcode_reads op
  rwa [h] at hr

theorem decodeOpcode_ok_or_invalid (op : Opcode) :
    (∃ i, decodeOpcode op = .ok i) ∨ decodeOpcode op = .invalidOpcode op := by
  have hr := decodeOpcode_reads op
  cases hd : decodeOpcode op with
  | ok i => exact .inl ⟨i, rfl⟩
  | invalidOpcode op' => rw [hd] at hr; exact .inr (congrArg _ hr)
  | truncated => rw [hd] at hr; exact hr.elim

/-! ### The rows of R86 -/

/-- Family Row over all instructions: each opcode the encoder gives selects its row of the table. -/
theorem Laws.Row.all : (i : Instr) → Laws.Row.Statement i
  | .cls => cls
  | .ret => ret
  | .jp nnn => jp nnn
  | .call nnn => call nnn
  | .seByte x kk => seByte x kk
  | .sneByte x kk => sneByte x kk
  | .seReg x y => seReg x y
  | .ldByte x kk => ldByte x kk
  | .addByte x kk => addByte x kk
  | .ldReg x y => ldReg x y
  | .orReg x y => orReg x y
  | .andReg x y => andReg x y
  | .xorReg x y => xorReg x y
  | .addReg x y => addReg x y
  | .subReg x y => subReg x y
  | .shr x y => shr x y
  | .subnReg x y => subnReg x y
  | .shl x y => shl x y
  | .sneReg x y => sneReg x y
  | .ldI nnn => ldI nnn
  | .jpV0 nnn => jpV0 nnn
  | .rnd x kk => rnd x kk
  | .drw x y n => drw x y n
  | .skp x => skp x
  | .sknp x => sknp x
  | .ldVxDt x => ldVxDt x
  | .ldVxK x => ldVxK x
  | .ldDtVx x => ldDtVx x
  | .ldStVx x => ldStVx x
  | .addIVx x => addIVx x
  | .ldFVx x => ldFVx x
  | .ldBVx x => ldBVx x
  | .ldMemVx x => ldMemVx x
  | .ldVxMem x => ldVxMem x

/-- An opcode that decodes selects the row of its instruction. -/
theorem selects_row_of_decodeOpcode {op : Opcode} {i : Instr} (h : decodeOpcode op = .ok i) :
    ∃ r ∈ opcodeRows, op &&& r.mask = r.pattern := by
  obtain ⟨hmask, hmem⟩ := Laws.Row.all i
  rw [encodeOpcode_of_decodeOpcode h] at hmask
  exact ⟨i.row, hmem, hmask⟩

/-- The families whose opcodes are all instructions (R83). -/
def fullFamilies : List Nibble := [0x1, 0x2, 0x3, 0x4, 0x6, 0x7, 0xA, 0xB, 0xC, 0xD]

/-- The low nibbles of family 8 (R84). -/
def aluNibbles : List Nibble := [0x0, 0x1, 0x2, 0x3, 0x4, 0x5, 0x6, 0x7, 0xE]

/-- The low bytes of family E (R84). -/
def keysBytes : List Byte := [0x9E, 0xA1]

/-- The low bytes of family F (R84). -/
def miscBytes : List Byte := [0x07, 0x0A, 0x15, 0x18, 0x1E, 0x29, 0x33, 0x55, 0x65]

theorem decodeOpcode_ok_of_fullFamily {op : Opcode} (hf : fieldF op ∈ fullFamilies) : ∃ i, decodeOpcode op = .ok i := by
  simp only [fullFamilies, List.mem_cons, List.not_mem_nil, or_false] at hf
  rcases hf with hf | hf | hf | hf | hf | hf | hf | hf | hf | hf <;> simp [decodeOpcode, hf]

theorem decodeOpcode_ok_of_family5or9 {op : Opcode} (hf : fieldF op = 0x5 ∨ fieldF op = 0x9) (hn : fieldN op = 0) :
    ∃ i, decodeOpcode op = .ok i := by
  obtain hf | hf := hf <;> simp [decodeOpcode, hf, hn]

theorem decodeOpcode_ok_of_family8 {op : Opcode} (hf : fieldF op = 0x8) (hn : fieldN op ∈ aluNibbles) :
    ∃ i, decodeOpcode op = .ok i := by
  simp only [aluNibbles, List.mem_cons, List.not_mem_nil, or_false] at hn
  rcases hn with hn | hn | hn | hn | hn | hn | hn | hn | hn <;> simp [decodeOpcode, decodeAlu, hf, hn]

theorem decodeOpcode_ok_of_familyE {op : Opcode} (hf : fieldF op = 0xE) (hk : fieldKK op ∈ keysBytes) :
    ∃ i, decodeOpcode op = .ok i := by
  simp only [keysBytes, List.mem_cons, List.not_mem_nil, or_false] at hk
  rcases hk with hk | hk <;> simp [decodeOpcode, decodeKeys, hf, hk]

theorem decodeOpcode_ok_of_familyF {op : Opcode} (hf : fieldF op = 0xF) (hk : fieldKK op ∈ miscBytes) :
    ∃ i, decodeOpcode op = .ok i := by
  simp only [miscBytes, List.mem_cons, List.not_mem_nil, or_false] at hk
  rcases hk with hk | hk | hk | hk | hk | hk | hk | hk | hk <;> simp [decodeOpcode, decodeMisc, hf, hk]

theorem opcodeRowsPlain_cases : ∀ r ∈ opcodeRowsPlain,
    r = ⟨0x00E0, 0xFFFF⟩ ∨ r = ⟨0x00EE, 0xFFFF⟩ ∨ r.mask = 0xF000 ∧ fieldF r.pattern ∈ fullFamilies := by
  decide

theorem opcodeRowsNibble_cases : ∀ r ∈ opcodeRowsNibble, r.mask = 0xF00F ∧
    (((fieldF r.pattern = 0x5 ∨ fieldF r.pattern = 0x9) ∧ fieldN r.pattern = 0) ∨
      (fieldF r.pattern = 0x8 ∧ fieldN r.pattern ∈ aluNibbles)) := by
  decide

theorem opcodeRowsByte_cases : ∀ r ∈ opcodeRowsByte, r.mask = 0xF0FF ∧
    ((fieldF r.pattern = 0xE ∧ fieldKK r.pattern ∈ keysBytes) ∨
      (fieldF r.pattern = 0xF ∧ fieldKK r.pattern ∈ miscBytes)) := by
  decide

theorem decodeOpcode_ok_of_plainRow {op : Opcode} {r : OpcodeRow} (hr : r ∈ opcodeRowsPlain)
    (hs : op &&& r.mask = r.pattern) : ∃ i, decodeOpcode op = .ok i := by
  obtain rfl | rfl | ⟨hm, hf⟩ := opcodeRowsPlain_cases r hr
  · have hop : op = 0x00E0 := (BitVec.and_allOnes (x := op)).symm.trans hs
    exact ⟨.cls, by rw [hop]; rfl⟩
  · have hop : op = 0x00EE := (BitVec.and_allOnes (x := op)).symm.trans hs
    exact ⟨.ret, by rw [hop]; rfl⟩
  · rw [hm] at hs
    rw [← fieldF_of_mask hs] at hf
    exact decodeOpcode_ok_of_fullFamily hf

theorem decodeOpcode_ok_of_nibbleRow {op : Opcode} {r : OpcodeRow} (hr : r ∈ opcodeRowsNibble)
    (hs : op &&& r.mask = r.pattern) : ∃ i, decodeOpcode op = .ok i := by
  obtain ⟨hm, hrow⟩ := opcodeRowsNibble_cases r hr
  rw [hm] at hs
  obtain ⟨hF, hN⟩ := fieldFN_of_mask hs
  rw [← hF, ← hN] at hrow
  obtain ⟨hf, hn⟩ | ⟨hf, hn⟩ := hrow
  · exact decodeOpcode_ok_of_family5or9 hf hn
  · exact decodeOpcode_ok_of_family8 hf hn

theorem decodeOpcode_ok_of_byteRow {op : Opcode} {r : OpcodeRow} (hr : r ∈ opcodeRowsByte)
    (hs : op &&& r.mask = r.pattern) : ∃ i, decodeOpcode op = .ok i := by
  obtain ⟨hm, hrow⟩ := opcodeRowsByte_cases r hr
  rw [hm] at hs
  obtain ⟨hF, hKK⟩ := fieldFKK_of_mask hs
  rw [← hF, ← hKK] at hrow
  obtain ⟨hf, hk⟩ | ⟨hf, hk⟩ := hrow
  · exact decodeOpcode_ok_of_familyE hf hk
  · exact decodeOpcode_ok_of_familyF hf hk

/-- An opcode that selects a row decodes to an instruction. -/
theorem decodeOpcode_ok_of_row {op : Opcode} {r : OpcodeRow} (hr : r ∈ opcodeRows) (hs : op &&& r.mask = r.pattern) :
    ∃ i, decodeOpcode op = .ok i := by
  simp only [opcodeRows, List.mem_append] at hr
  obtain (hr | hr) | hr := hr
  · exact decodeOpcode_ok_of_plainRow hr hs
  · exact decodeOpcode_ok_of_nibbleRow hr hs
  · exact decodeOpcode_ok_of_byteRow hr hs

/-- Two rows that one opcode selects agree on the bits both masks cover. -/
theorem patterns_agree_of_selects {op : Opcode} {r r' : OpcodeRow} (hr : op &&& r.mask = r.pattern)
    (hr' : op &&& r'.mask = r'.pattern) : r.pattern &&& r'.mask = r'.pattern &&& r.mask := by
  rw [← hr, ← hr']
  ac_rfl

/-- Any two rows of the table differ in a bit both masks cover. -/
theorem opcodeRows_patterns_differ :
    opcodeRows.Pairwise (fun r r' => r.pattern &&& r'.mask ≠ r'.pattern &&& r.mask) := by
  decide

/-- Settles O3: a decoding is what the decoder can read, the instruction read selects its row, every row is decoded, and
two rows always differ in a bit both masks cover. -/
theorem eachOpcodeSelectsOneRowOrIsInvalid : Obligations.EachOpcodeSelectsOneRowOrIsInvalid := by
  refine ⟨decodeOpcode_ok_or_invalid, fun op => ⟨?_, ?_⟩, fun op => ?_, fun op => decodeOpcode_ok_of_fullFamily⟩
  · rintro ⟨i, hi⟩
    exact selects_row_of_decodeOpcode hi
  · rintro ⟨r, hr, hs⟩
    exact decodeOpcode_ok_of_row hr hs
  · exact opcodeRows_patterns_differ.imp fun hne ⟨hr, hr'⟩ => hne (patterns_agree_of_selects hr hr')

end Sys2Proof
end

section
/-! Proofs about the Running cycle (40_cycle.md R102 to R105): what a fetch, a decode and an execution may raise. -/

namespace Sys2Proof.Machine

/-! ### The three outcomes of a Running cycle -/

/-- The opcode at `PC` is the opcode of the two bytes there, so it is what the cycle decodes. -/
theorem decode_bytes_of_opcodeAtPc {s : State} {op : Opcode} (hop : s.OpcodeAtPc op) :
    decode (s.mem.bytes s.pc.toNat 2) = decodeOpcode op := by
  have hbytes : op = opcodeOfBytes (s.mem.byte s.pc.toNat) (s.mem.byte (s.pc.toNat + 1)) :=
    BitVec.eq_of_toNat_eq (hop.trans (opcodeOfBytes_toNat _ _).symm)
  rw [hbytes]
  rfl

theorem cycle_of_running {s : State} (hm : s.mode = .running) : cycle s = runningCycle s := by
  simp [cycle, hm]

/-- R102: past 0xFFE nothing is fetched. -/
theorem cycle_of_pc_beyond {s : State} (hm : s.mode = .running) (hpc : 0xFFE < s.pc.toNat) :
    cycle s = .next (s.raise .outOfBounds) := by
  rw [cycle_of_running hm]
  obtain ⟨-, h⟩ | ⟨hle, -⟩ := runningCycle_cases s
  · exact h
  · omega

/-- With a fetchable `PC` the cycle executes the opcode there, or raises InvalidOpcode (R103, R104). -/
theorem cycle_cases_of_pc_fetchable {s : State} (hm : s.mode = .running) (hpc : s.pc.toNat ≤ 0xFFE) :
    (∃ i, decode (s.mem.bytes s.pc.toNat 2) = .ok i ∧ cycle s = exec i s) ∨
      ∃ op, decode (s.mem.bytes s.pc.toNat 2) = .invalidOpcode op ∧ cycle s = .next (s.raise .invalidOpcode) := by
  rw [cycle_of_running hm]
  obtain ⟨hgt, -⟩ | ⟨-, -, hinvalid | hok⟩ := runningCycle_cases s
  · omega
  · exact .inr hinvalid
  · exact .inl hok

/-! ### What an execution may raise -/

/-- The causes of the execution checks (R105). -/
def executionFaults : List FaultCause := [.stackOverflow, .stackUnderflow, .dataOutOfBounds, .keyOutOfRange]

/-- An execution leaves the cause as it was, or raises one of the execution checks. -/
theorem exec_faultCause_cases (s : State) (i : Instr) :
    ∃ t, exec i s = .next t ∧ (t.faultCause = s.faultCause ∨ ∃ f ∈ executionFaults, t = s.raise f) := by
  cases i with
  | call nnn =>
    by_cases h : s.sp.val < 16
    · exact ⟨_, exec_call_of_room s nnn h, .inl rfl⟩
    · exact ⟨_, exec_call_of_full s nnn (by omega), .inr ⟨_, by decide, rfl⟩⟩
  | ret =>
    by_cases h : 0 < s.sp.val
    · exact ⟨_, exec_ret_of_entry s h, .inl rfl⟩
    · exact ⟨_, exec_ret_of_empty s (by omega), .inr ⟨_, by decide, rfl⟩⟩
  | skp x =>
    by_cases h : (s.readV x).toNat ≤ 15
    · exact ⟨_, exec_skp_of_key s x h, .inl (s.skipIf_faultCause _)⟩
    · exact ⟨_, exec_skp_out_of_range s x (by omega), .inr ⟨_, by decide, rfl⟩⟩
  | sknp x =>
    by_cases h : (s.readV x).toNat ≤ 15
    · exact ⟨_, exec_sknp_of_key s x h, .inl (s.skipIf_faultCause _)⟩
    · exact ⟨_, exec_sknp_out_of_range s x (by omega), .inr ⟨_, by decide, rfl⟩⟩
  | drw x y n =>
    by_cases h : n.toNat = 0 ∨ s.i.toNat + n.toNat ≤ 0x1000
    · exact ⟨_, exec_drw_in_memory s x y n h, .inl rfl⟩
    · exact ⟨_, exec_drw_out_of_memory s x y n (by omega) (by omega), .inr ⟨_, by decide, rfl⟩⟩
  | ldBVx x =>
    by_cases h : s.i.toNat + 3 ≤ 0x1000
    · exact ⟨_, exec_ldBVx_in_memory s x h, .inl rfl⟩
    · exact ⟨_, exec_ldBVx_out_of_memory s x (by omega), .inr ⟨_, by decide, rfl⟩⟩
  | ldMemVx x =>
    by_cases h : s.i.toNat + x.toNat ≤ 0xFFF
    · exact ⟨_, exec_ldMemVx_in_memory s x h, .inl rfl⟩
    · exact ⟨_, exec_ldMemVx_out_of_memory s x (by omega), .inr ⟨_, by decide, rfl⟩⟩
  | ldVxMem x =>
    by_cases h : s.i.toNat + x.toNat ≤ 0xFFF
    · exact ⟨_, exec_ldVxMem_in_memory s x h, .inl rfl⟩
    · exact ⟨_, exec_ldVxMem_out_of_memory s x (by omega), .inr ⟨_, by decide, rfl⟩⟩
  | seByte | sneByte | seReg | sneReg => exact ⟨_, rfl, .inl (s.skipIf_faultCause _)⟩
  | _ => exact ⟨_, rfl, .inl rfl⟩

/-- From a state with no cause, an execution raises only its own checks: neither the fetch's fault nor the decode's. -/
theorem exec_faultCause_ne {s t : State} {i : Instr} {f : FaultCause} (hs : s.faultCause = .none)
    (h : exec i s = .next t) (hnone : f ≠ .none) (hf : f ∉ executionFaults) : t.faultCause ≠ f := by
  obtain ⟨t', ht', hcause⟩ := exec_faultCause_cases s i
  obtain rfl : t' = t := Host.Outcome.next.inj (ht'.symm.trans h)
  obtain hsame | ⟨g, hg, rfl⟩ := hcause
  · rw [hsame, hs]
    exact hnone.symm
  · exact ne_of_mem_of_not_mem hg hf

/-! ### Jumps and skips -/

theorem State.skipIf_eq_writePc (s : State) (c : Bool) : ∃ w, s.skipIf c = s.writePc w := by
  cases c <;> exact ⟨_, rfl⟩

/-- The jumps and skips without an execution check write `PC`, unchecked, and nothing else (R102, R107). -/
theorem exec_jump_or_skip_eq_writePc (s : State) (x y : Nibble) (kk : Byte) (nnn : Addr) :
    ∀ i ∈ [Instr.jp nnn, .jpV0 nnn, .seByte x kk, .sneByte x kk, .seReg x y, .sneReg x y],
      ∃ w, exec i s = .next (s.writePc w) := by
  have hskip {i : Instr} {c : Bool} (h : exec i s = .next (s.skipIf c)) : ∃ w, exec i s = .next (s.writePc w) :=
    (s.skipIf_eq_writePc c).imp fun _ hw => h.trans (congrArg _ hw)
  simp only [List.forall_mem_cons]
  exact ⟨⟨_, rfl⟩, ⟨_, rfl⟩, hskip rfl, hskip rfl, hskip rfl, hskip rfl, List.forall_mem_nil _⟩

/-! ### The statements -/

/-- Settles O11: nothing is fetched beyond 0xFFE, the decode and the execution checks raise other causes, and a jump or
a skip only writes `PC`. -/
theorem fetchBeyondMemoryRaisesOutOfBounds : Obligations.FetchBeyondMemoryRaisesOutOfBounds := by
  refine ⟨fun s => cycle_of_pc_beyond, fun s t hm hpc hnone hc => ?_, fun s x y kk nnn i hi hm => ?_⟩
  · obtain ⟨i, -, hexec⟩ | ⟨_, -, hraise⟩ := cycle_cases_of_pc_fetchable hm hpc
    · exact exec_faultCause_ne hnone (hexec.symm.trans hc) (by decide) (by decide)
    · rw [hraise] at hc
      cases hc
      simp
  · obtain ⟨w, hw⟩ := exec_jump_or_skip_eq_writePc s x y kk nnn i hi
    exact ⟨s.writePc w, hw, hm, rfl, cycle_of_pc_beyond hm⟩

/-- Settles O12: an opcode decodes exactly when it matches a row, one that does not decode is raised, and one that does
is executed, where the checks raise other causes. -/
theorem unmatchedOpcodeRaisesInvalidOpcode : Obligations.UnmatchedOpcodeRaisesInvalidOpcode := by
  refine ⟨fun s op hm hpc hop hrow => ?_, fun s t op hm hpc hop hnone ⟨r, hr, hsel⟩ hc => ?_⟩
  · obtain ⟨i, hi, -⟩ | ⟨_, -, hraise⟩ := cycle_cases_of_pc_fetchable hm hpc
    · rw [decode_bytes_of_opcodeAtPc hop] at hi
      obtain ⟨r, hr, hsel⟩ := selects_row_of_decodeOpcode hi
      exact absurd hsel (hrow r hr)
    · exact hraise
  · obtain ⟨i, -, hexec⟩ | ⟨_, hinvalid, -⟩ := cycle_cases_of_pc_fetchable hm hpc
    · exact exec_faultCause_ne hnone (hexec.symm.trans hc) (by decide) (by decide)
    · obtain ⟨i, hi⟩ := decodeOpcode_ok_of_row hr hsel
      rw [decode_bytes_of_opcodeAtPc hop, hi] at hinvalid
      cases hinvalid

end Sys2Proof.Machine
end

section
/-! Proofs about the flow instructions (41_flow.md): the jump `1nnn` (R116). -/

namespace Sys2Proof.Machine

/-! ### Writing `PC` -/

theorem Part.same_writePc (s : State) (w : Word) (p : Part) : p.Same s (s.writePc w) := by
  cases p with
  | memory => exact fun _ => rfl
  | frames => exact ⟨rfl, rfl⟩
  | _ => rfl

theorem State.onlyWrites_writePc (s : State) (w : Word) : s.OnlyWrites (s.writePc w) noRegs [] :=
  ⟨fun _ _ => rfl, fun p _ => p.same_writePc s w⟩

theorem State.writePc_eq_self {s : State} {w : Word} (h : s.pc = w) : s.writePc w = s := by
  rw [← h]
  rfl

/-! ### The jump -/

/-- The family nibble alone selects the row (R83). -/
theorem encodedBy_jp : EncodedBy 0x1000 0xF000 (fun op => .jp (fieldNNN op)) := by
  intro op hrow
  have hf : fieldF op = 0x1 := fieldF_of_mask hrow
  simp [decodeOpcode, hf]

theorem exec_jp (s : State) (nnn : Addr) : exec (.jp nnn) s = .next (s.writePc (nnn.setWidth 16)) := rfl

/-- An address keeps its value as a `PC`: it is zero-extended. -/
theorem toNat_pc_of_addr (nnn : Addr) : (nnn.setWidth 16 : Word).toNat = nnn.toNat :=
  BitVec.toNat_setWidth_of_le (by decide)

/-- Settles O33: the family nibble selects the jump, which writes `nnn` to `PC` and nothing else, so that a `PC` of `nnn`
already is written with its own value. -/
theorem jumpSetsPcToTheAddress : Obligations.JumpSetsPcToTheAddress := by
  refine ⟨encodedBy_jp, fun s nnn => ⟨⟨_, exec_jp s nnn, ?_, s.onlyWrites_writePc _⟩, fun hpc => ?_⟩⟩
  · rw [State.writePc_pc, toNat_pc_of_addr]
  · have hself : s.pc = nnn.setWidth 16 := BitVec.eq_of_toNat_eq (hpc.trans (toNat_pc_of_addr nnn).symm)
    rw [exec_jp, State.writePc_eq_self hself]

end Sys2Proof.Machine
end

section
/-! Proofs about the conditional skips (42_skip.md): what a skip writes, and the byte skips `3xkk`, `4xkk` (R120, R121). -/

namespace Sys2Proof.Machine

/-! ### Skipping -/

/-- The skip of R107, whatever form the condition is stated in. -/
theorem State.skipsIf_skipIf (s : State) {c : Bool} {p : Prop} (hc : c = true ↔ p) : s.SkipsIf (s.skipIf c) p := by
  refine ⟨fun hp => ?_, fun hp => ?_⟩
  · rw [State.skipIf_pc, if_pos (hc.mpr hp)]
    exact BitVec.toNat_add _ _
  · rw [State.skipIf_pc, if_neg (mt hc.mp hp)]
    exact BitVec.toNat_add _ _

theorem State.onlyWrites_skipIf (s : State) (c : Bool) : s.OnlyWrites (s.skipIf c) noRegs [] := by
  obtain ⟨w, hw⟩ := s.skipIf_eq_writePc c
  rw [hw]
  exact s.onlyWrites_writePc w

/-! ### The byte skips -/

theorem exec_seByte (s : State) (x : Nibble) (kk : Byte) :
    exec (.seByte x kk) s = .next (s.skipIf (s.readV x == kk)) := rfl

theorem exec_sneByte (s : State) (x : Nibble) (kk : Byte) :
    exec (.sneByte x kk) s = .next (s.skipIf (s.readV x != kk)) := rfl

theorem decodeOpcode_of_family3 {op : Opcode} (hf : fieldF op = 0x3) :
    decodeOpcode op = .ok (.seByte (fieldX op) (fieldKK op)) := by
  simp [decodeOpcode, hf]

theorem decodeOpcode_of_family4 {op : Opcode} (hf : fieldF op = 0x4) :
    decodeOpcode op = .ok (.sneByte (fieldX op) (fieldKK op)) := by
  simp [decodeOpcode, hf]

/-- Settles O38: the family nibble selects each skip, a skip writes only `PC`, and two bytes are equal exactly when their
values are. -/
theorem byteSkipsCompareRegisterAndByte : Obligations.ByteSkipsCompareRegisterAndByte := by
  refine ⟨fun op hrow => decodeOpcode_of_family3 (fieldF_of_mask hrow),
    fun op hrow => decodeOpcode_of_family4 (fieldF_of_mask hrow), fun s x kk => ?_⟩
  have heq : (s.readV x == kk) = true ↔ (s.readV x).toNat = kk.toNat := beq_iff_eq.trans BitVec.toNat_inj.symm
  have hne : (s.readV x != kk) = true ↔ (s.readV x).toNat ≠ kk.toNat := bne_iff_ne.trans BitVec.toNat_inj.symm.not
  exact ⟨⟨_, exec_seByte s x kk, s.skipsIf_skipIf heq, s.onlyWrites_skipIf _⟩,
    ⟨_, exec_sneByte s x kk, s.skipsIf_skipIf hne, s.onlyWrites_skipIf _⟩⟩

end Sys2Proof.Machine
end

section
/-! Proofs about the loads and the immediate add (43_load_add_rand.md): what one write leaves unchanged, and `6xkk`, `7xkk`,
`Annn` (R125 to R127). -/

namespace Sys2Proof.Machine

/-! ### A register or index write, then the advance -/

theorem Part.same_writeV (s : State) (x : Nibble) (b : Byte) (p : Part) : p.Same s (s.writeV x b) := by
  cases p with
  | memory => exact fun _ => rfl
  | frames => exact ⟨rfl, rfl⟩
  | _ => rfl

theorem State.onlyWrites_writeV (s : State) (x : Nibble) (b : Byte) : s.OnlyWrites (s.writeV x b) (fun r => r = x) [] :=
  ⟨fun r hr => (s.readV_writeV x r b).trans (if_neg hr), fun p _ => p.same_writeV s x b⟩

theorem State.onlyWrites_writeI (s : State) (w : Word) : s.OnlyWrites (s.writeI w) noRegs [.index] := by
  refine ⟨fun _ _ => rfl, fun p hp => ?_⟩
  cases p with
  | index => exact absurd List.mem_cons_self hp
  | memory => exact fun _ => rfl
  | frames => exact ⟨rfl, rfl⟩
  | _ => rfl

theorem State.readV_advance (s : State) (x : Nibble) : s.advance.readV x = s.readV x := State.readV_congr s.advance_v x

theorem Part.Same.advance {s t : State} {p : Part} (h : p.Same s t) : p.Same s t.advance := by
  cases p <;> exact h

theorem State.OnlyWrites.advance {s t : State} {regs : Nibble → Prop} {parts : List Part}
    (h : s.OnlyWrites t regs parts) : s.OnlyWrites t.advance regs parts := by
  obtain ⟨hregs, hparts⟩ := h
  exact ⟨fun r hr => (t.readV_advance r).trans (hregs r hr), fun p hp => (hparts p hp).advance⟩

/-- The advance of R107 after writes that keep `PC`. -/
theorem State.advances_advance {s t : State} (h : t.pc = s.pc) : s.Advances t.advance := by
  rw [State.Advances, State.advance_pc, h]
  exact BitVec.toNat_add _ _

/-! ### The byte loads and adds -/

theorem exec_ldByte (s : State) (x : Nibble) (kk : Byte) :
    exec (.ldByte x kk) s = .next (s.writeV x kk).advance := rfl

theorem exec_addByte (s : State) (x : Nibble) (kk : Byte) :
    exec (.addByte x kk) s = .next (s.writeV x (s.readV x + kk)).advance := rfl

theorem decodeOpcode_of_family6 {op : Opcode} (hf : fieldF op = 0x6) :
    decodeOpcode op = .ok (.ldByte (fieldX op) (fieldKK op)) := by
  simp [decodeOpcode, hf]

theorem decodeOpcode_of_family7 {op : Opcode} (hf : fieldF op = 0x7) :
    decodeOpcode op = .ok (.addByte (fieldX op) (fieldKK op)) := by
  simp [decodeOpcode, hf]

/-- Settles O40: the family nibble selects the load, and writing a register, whichever `x` names, changes that register
alone. -/
theorem loadByteWritesTheRegister : Obligations.LoadByteWritesTheRegister := by
  refine ⟨fun op hrow => decodeOpcode_of_family6 (fieldF_of_mask hrow), fun s x kk => ⟨_, exec_ldByte s x kk, ?_,
    State.advances_advance (s.writeV_pc x kk), (s.onlyWrites_writeV x kk).advance⟩⟩
  rw [State.readV_advance, State.readV_writeV_same]

/-- Settles O41: the family nibble selects the add, the sum of two bytes is modulo 256, and the one register written is
`V[x]`, so `VF` takes no carry. -/
theorem addByteWrapsWithoutAFlag : Obligations.AddByteWrapsWithoutAFlag := by
  refine ⟨fun op hrow => decodeOpcode_of_family7 (fieldF_of_mask hrow), fun s x kk => ⟨_, exec_addByte s x kk, ?_,
    State.advances_advance (s.writeV_pc x _), (s.onlyWrites_writeV x _).advance⟩⟩
  rw [State.readV_advance, State.readV_writeV_same]
  exact BitVec.toNat_add _ _

/-! ### The index load -/

theorem exec_ldI (s : State) (nnn : Addr) : exec (.ldI nnn) s = .next (s.writeI (nnn.setWidth 16)).advance := rfl

theorem decodeOpcode_of_familyA {op : Opcode} (hf : fieldF op = 0xA) : decodeOpcode op = .ok (.ldI (fieldNNN op)) := by
  simp [decodeOpcode, hf]

/-- Settles O42: the family nibble selects the load, which writes `I`, the address zero-extended, and no register. -/
theorem loadIndexZeroExtendsTheAddress : Obligations.LoadIndexZeroExtendsTheAddress := by
  refine ⟨fun op hrow => decodeOpcode_of_familyA (fieldF_of_mask hrow), fun s nnn => ⟨_, exec_ldI s nnn, ?_,
    State.advances_advance (s.writeI_pc _), (s.onlyWrites_writeI _).advance⟩⟩
  rw [State.advance_i, State.writeI_i, toNat_pc_of_addr]

end Sys2Proof.Machine
end

section
/-! Proofs about the timer, index and memory instructions (47_timer_index_mem.md): the glyph address `Fx29` (R154). -/

namespace Sys2Proof.Machine

/-! ### The glyph address -/

theorem decodeOpcode_of_familyF_byte29 {op : Opcode} (hf : fieldF op = 0xF) (hk : fieldKK op = 0x29) :
    decodeOpcode op = .ok (.ldFVx (fieldX op)) := by
  simp [decodeOpcode, decodeMisc, hf, hk]

/-- The family nibble and the low byte select the row (R84). -/
theorem encodedBy_ldFVx : EncodedBy 0xF029 0xF0FF (fun op => .ldFVx (fieldX op)) := by
  intro op hrow
  obtain ⟨hf, hk⟩ := fieldFKK_of_mask hrow
  exact decodeOpcode_of_familyF_byte29 hf hk

theorem exec_ldFVx (s : State) (x : Nibble) :
    exec (.ldFVx x) s = .next (s.writeI (BitVec.ofNat 16 ((s.readV x).toNat % 16 * 5))).advance := rfl

/-- The address of a glyph is at most 75, so sixteen bits hold it. -/
theorem toNat_glyphAddress (n : Nat) : (BitVec.ofNat 16 (n % 16 * 5)).toNat = n % 16 * 5 := by
  have hdigit : n % 16 < 16 := Nat.mod_lt _ (by decide)
  rw [BitVec.toNat_ofNat]
  exact Nat.mod_eq_of_lt (by omega)

/-- Settles O55: the family nibble and the low byte select the row, and what is written to `I`, and to nothing else, is
computed from the low nibble of `V[x]` alone and fits in `I`. -/
theorem fontAddressIsFiveTimesTheDigit : Obligations.FontAddressIsFiveTimesTheDigit := by
  refine ⟨encodedBy_ldFVx, fun s x => ⟨_, exec_ldFVx s x, ?_, State.advances_advance (s.writeI_pc _),
    (s.onlyWrites_writeI _).advance⟩⟩
  rw [State.advance_i, State.writeI_i, toNat_glyphAddress]

end Sys2Proof.Machine
end

section
/-! Proofs about the decoder row by row (30_encoding.md R84, R86, R88): every row of the table decodes with its fields,
the encoder and the decoder undo each other, and the opcodes that are left are the illegal ones. -/

namespace Sys2Proof

open Machine

/-! ### A row from what its mask fixes -/

/-- A FIXED row has one opcode. -/
theorem encodedBy_fixed {pattern : Opcode} {i : Opcode → Instr} (h : decodeOpcode pattern = .ok (i pattern)) :
    EncodedBy pattern 0xFFFF i := by
  intro op hrow
  obtain rfl : op = pattern := (BitVec.and_allOnes (x := op)).symm.trans hrow
  exact h

/-- A row selected by its family. -/
theorem encodedBy_family {pattern : Opcode} {i : Opcode → Instr}
    (h : ∀ op, fieldF op = fieldF pattern → decodeOpcode op = .ok (i op)) : EncodedBy pattern 0xF000 i :=
  fun op hrow => h op (fieldF_of_mask hrow)

/-- A row selected by its family and low nibble. -/
theorem encodedBy_nibble {pattern : Opcode} {i : Opcode → Instr}
    (h : ∀ op, fieldF op = fieldF pattern → fieldN op = fieldN pattern → decodeOpcode op = .ok (i op)) :
    EncodedBy pattern 0xF00F i := by
  intro op hrow
  obtain ⟨hf, hn⟩ := fieldFN_of_mask hrow
  exact h op hf hn

/-- A row selected by its family and low byte. -/
theorem encodedBy_byte {pattern : Opcode} {i : Opcode → Instr}
    (h : ∀ op, fieldF op = fieldF pattern → fieldKK op = fieldKK pattern → decodeOpcode op = .ok (i op)) :
    EncodedBy pattern 0xF0FF i := by
  intro op hrow
  obtain ⟨hf, hk⟩ := fieldFKK_of_mask hrow
  exact h op hf hk

/-! ### The family nibble selects the part of the decoder -/

theorem decodeOpcode_of_family0 {op : Opcode} (hf : fieldF op = 0x0) : decodeOpcode op =
    if op = 0x00E0 then .ok .cls else if op = 0x00EE then .ok .ret else .invalidOpcode op := by
  rw [decodeOpcode, hf]
  rfl

theorem decodeOpcode_of_family5 {op : Opcode} (hf : fieldF op = 0x5) : decodeOpcode op =
    if fieldN op = 0 then .ok (.seReg (fieldX op) (fieldY op)) else .invalidOpcode op := by
  rw [decodeOpcode, hf]
  rfl

theorem decodeOpcode_of_family8 {op : Opcode} (hf : fieldF op = 0x8) : decodeOpcode op = decodeAlu op := by
  rw [decodeOpcode, hf]
  rfl

theorem decodeOpcode_of_family9 {op : Opcode} (hf : fieldF op = 0x9) : decodeOpcode op =
    if fieldN op = 0 then .ok (.sneReg (fieldX op) (fieldY op)) else .invalidOpcode op := by
  rw [decodeOpcode, hf]
  rfl

theorem decodeOpcode_of_familyE {op : Opcode} (hf : fieldF op = 0xE) : decodeOpcode op = decodeKeys op := by
  rw [decodeOpcode, hf]
  rfl

theorem decodeOpcode_of_familyF {op : Opcode} (hf : fieldF op = 0xF) : decodeOpcode op = decodeMisc op := by
  rw [decodeOpcode, hf]
  rfl

/-! ### The rows whose family is the whole selector, and families 5 and 9 -/

theorem encodedBy_call : EncodedBy 0x2000 0xF000 (fun op => .call (fieldNNN op)) :=
  encodedBy_family fun op hf => by rw [decodeOpcode, hf]; rfl

theorem encodedBy_seByte : EncodedBy 0x3000 0xF000 (fun op => .seByte (fieldX op) (fieldKK op)) :=
  encodedBy_family fun _ => decodeOpcode_of_family3

theorem encodedBy_sneByte : EncodedBy 0x4000 0xF000 (fun op => .sneByte (fieldX op) (fieldKK op)) :=
  encodedBy_family fun _ => decodeOpcode_of_family4

theorem encodedBy_seReg : EncodedBy 0x5000 0xF00F (fun op => .seReg (fieldX op) (fieldY op)) :=
  encodedBy_nibble fun _ hf hn => (decodeOpcode_of_family5 hf).trans (if_pos hn)

theorem encodedBy_ldByte : EncodedBy 0x6000 0xF000 (fun op => .ldByte (fieldX op) (fieldKK op)) :=
  encodedBy_family fun _ => decodeOpcode_of_family6

theorem encodedBy_addByte : EncodedBy 0x7000 0xF000 (fun op => .addByte (fieldX op) (fieldKK op)) :=
  encodedBy_family fun _ => decodeOpcode_of_family7

theorem encodedBy_sneReg : EncodedBy 0x9000 0xF00F (fun op => .sneReg (fieldX op) (fieldY op)) :=
  encodedBy_nibble fun _ hf hn => (decodeOpcode_of_family9 hf).trans (if_pos hn)

theorem encodedBy_ldI : EncodedBy 0xA000 0xF000 (fun op => .ldI (fieldNNN op)) :=
  encodedBy_family fun _ => decodeOpcode_of_familyA

theorem encodedBy_jpV0 : EncodedBy 0xB000 0xF000 (fun op => .jpV0 (fieldNNN op)) :=
  encodedBy_family fun op hf => by rw [decodeOpcode, hf]; rfl

theorem encodedBy_rnd : EncodedBy 0xC000 0xF000 (fun op => .rnd (fieldX op) (fieldKK op)) :=
  encodedBy_family fun op hf => by rw [decodeOpcode, hf]; rfl

theorem encodedBy_drw : EncodedBy 0xD000 0xF000 (fun op => .drw (fieldX op) (fieldY op) (fieldN op)) :=
  encodedBy_family fun op hf => by rw [decodeOpcode, hf]; rfl

/-! ### The rows of families 8, E and F -/

/-- A row of family 8, from what the ALU part of the decoder answers on its low nibble. -/
theorem encodedBy_alu {pattern : Opcode} {i : Opcode → Instr} (hf : fieldF pattern = 0x8)
    (h : ∀ op, fieldN op = fieldN pattern → decodeAlu op = .ok (i op)) : EncodedBy pattern 0xF00F i :=
  encodedBy_nibble fun op hF hN => (decodeOpcode_of_family8 (hF.trans hf)).trans (h op hN)

/-- A row of family E, from what its part of the decoder answers on its low byte. -/
theorem encodedBy_keys {pattern : Opcode} {i : Opcode → Instr} (hf : fieldF pattern = 0xE)
    (h : ∀ op, fieldKK op = fieldKK pattern → decodeKeys op = .ok (i op)) : EncodedBy pattern 0xF0FF i :=
  encodedBy_byte fun op hF hK => (decodeOpcode_of_familyE (hF.trans hf)).trans (h op hK)

/-- A row of family F, from what its part of the decoder answers on its low byte. -/
theorem encodedBy_misc {pattern : Opcode} {i : Opcode → Instr} (hf : fieldF pattern = 0xF)
    (h : ∀ op, fieldKK op = fieldKK pattern → decodeMisc op = .ok (i op)) : EncodedBy pattern 0xF0FF i :=
  encodedBy_byte fun op hF hK => (decodeOpcode_of_familyF (hF.trans hf)).trans (h op hK)

theorem encodedBy_ldReg : EncodedBy 0x8000 0xF00F (fun op => .ldReg (fieldX op) (fieldY op)) :=
  encodedBy_alu rfl fun op hn => by rw [decodeAlu, hn]; rfl

theorem encodedBy_orReg : EncodedBy 0x8001 0xF00F (fun op => .orReg (fieldX op) (fieldY op)) :=
  encodedBy_alu rfl fun op hn => by rw [decodeAlu, hn]; rfl

theorem encodedBy_andReg : EncodedBy 0x8002 0xF00F (fun op => .andReg (fieldX op) (fieldY op)) :=
  encodedBy_alu rfl fun op hn => by rw [decodeAlu, hn]; rfl

theorem encodedBy_xorReg : EncodedBy 0x8003 0xF00F (fun op => .xorReg (fieldX op) (fieldY op)) :=
  encodedBy_alu rfl fun op hn => by rw [decodeAlu, hn]; rfl

theorem encodedBy_addReg : EncodedBy 0x8004 0xF00F (fun op => .addReg (fieldX op) (fieldY op)) :=
  encodedBy_alu rfl fun op hn => by rw [decodeAlu, hn]; rfl

theorem encodedBy_subReg : EncodedBy 0x8005 0xF00F (fun op => .subReg (fieldX op) (fieldY op)) :=
  encodedBy_alu rfl fun op hn => by rw [decodeAlu, hn]; rfl

theorem encodedBy_shr : EncodedBy 0x8006 0xF00F (fun op => .shr (fieldX op) (fieldY op)) :=
  encodedBy_alu rfl fun op hn => by rw [decodeAlu, hn]; rfl

theorem encodedBy_subnReg : EncodedBy 0x8007 0xF00F (fun op => .subnReg (fieldX op) (fieldY op)) :=
  encodedBy_alu rfl fun op hn => by rw [decodeAlu, hn]; rfl

theorem encodedBy_shl : EncodedBy 0x800E 0xF00F (fun op => .shl (fieldX op) (fieldY op)) :=
  encodedBy_alu rfl fun op hn => by rw [decodeAlu, hn]; rfl

theorem encodedBy_skp : EncodedBy 0xE09E 0xF0FF (fun op => .skp (fieldX op)) :=
  encodedBy_keys rfl fun op hk => by rw [decodeKeys, hk]; rfl

theorem encodedBy_sknp : EncodedBy 0xE0A1 0xF0FF (fun op => .sknp (fieldX op)) :=
  encodedBy_keys rfl fun op hk => by rw [decodeKeys, hk]; rfl

theorem encodedBy_ldVxDt : EncodedBy 0xF007 0xF0FF (fun op => .ldVxDt (fieldX op)) :=
  encodedBy_misc rfl fun op hk => by rw [decodeMisc, hk]; rfl

theorem encodedBy_ldVxK : EncodedBy 0xF00A 0xF0FF (fun op => .ldVxK (fieldX op)) :=
  encodedBy_misc rfl fun op hk => by rw [decodeMisc, hk]; rfl

theorem encodedBy_ldDtVx : EncodedBy 0xF015 0xF0FF (fun op => .ldDtVx (fieldX op)) :=
  encodedBy_misc rfl fun op hk => by rw [decodeMisc, hk]; rfl

theorem encodedBy_ldStVx : EncodedBy 0xF018 0xF0FF (fun op => .ldStVx (fieldX op)) :=
  encodedBy_misc rfl fun op hk => by rw [decodeMisc, hk]; rfl

theorem encodedBy_addIVx : EncodedBy 0xF01E 0xF0FF (fun op => .addIVx (fieldX op)) :=
  encodedBy_misc rfl fun op hk => by rw [decodeMisc, hk]; rfl

theorem encodedBy_ldBVx : EncodedBy 0xF033 0xF0FF (fun op => .ldBVx (fieldX op)) :=
  encodedBy_misc rfl fun op hk => by rw [decodeMisc, hk]; rfl

theorem encodedBy_ldMemVx : EncodedBy 0xF055 0xF0FF (fun op => .ldMemVx (fieldX op)) :=
  encodedBy_misc rfl fun op hk => by rw [decodeMisc, hk]; rfl

theorem encodedBy_ldVxMem : EncodedBy 0xF065 0xF0FF (fun op => .ldVxMem (fieldX op)) :=
  encodedBy_misc rfl fun op hk => by rw [decodeMisc, hk]; rfl

/-- Settles O2, row by row: what the mask fixes is what the decoder branches on. -/
theorem everyTableRowDecodesWithItsFields : Obligations.EveryTableRowDecodesWithItsFields :=
  ⟨encodedBy_fixed rfl, encodedBy_fixed rfl, encodedBy_jp, encodedBy_call, encodedBy_seByte, encodedBy_sneByte,
    encodedBy_seReg, encodedBy_ldByte, encodedBy_addByte, encodedBy_ldReg, encodedBy_orReg, encodedBy_andReg,
    encodedBy_xorReg, encodedBy_addReg, encodedBy_subReg, encodedBy_shr, encodedBy_subnReg, encodedBy_shl,
    encodedBy_sneReg, encodedBy_ldI, encodedBy_jpV0, encodedBy_rnd, encodedBy_drw, encodedBy_skp, encodedBy_sknp,
    encodedBy_ldVxDt, encodedBy_ldVxK, encodedBy_ldDtVx, encodedBy_ldStVx, encodedBy_addIVx, encodedBy_ldFVx,
    encodedBy_ldBVx, encodedBy_ldMemVx, encodedBy_ldVxMem⟩

/-! ### Encoding and decoding undo each other -/

/-- A row's opcode decodes with the fields it was encoded from. -/
theorem decode_encode_of_encodedBy {pattern mask : Opcode} {instr : Opcode → Instr} (h : EncodedBy pattern mask instr)
    {i : Instr} (hrow : encodeOpcode i &&& mask = pattern) (hfields : instr (encodeOpcode i) = i) :
    decodeOpcode (encodeOpcode i) = .ok i :=
  (h _ hrow).trans (congrArg _ hfields)

/-- The encoder's opcode of an instruction selects the instruction's row, and the fields it is put together from are the
operands. -/
theorem decodeOpcode_encodeOpcode (i : Instr) : decodeOpcode (encodeOpcode i) = .ok i := by
  obtain ⟨hrow, -⟩ := Laws.Row.all i
  cases i with
  | cls => rfl
  | ret => rfl
  | jp => exact decode_encode_of_encodedBy encodedBy_jp hrow (by simp [encodeOpcode])
  | call => exact decode_encode_of_encodedBy encodedBy_call hrow (by simp [encodeOpcode])
  | seByte => exact decode_encode_of_encodedBy encodedBy_seByte hrow (by simp [encodeOpcode])
  | sneByte => exact decode_encode_of_encodedBy encodedBy_sneByte hrow (by simp [encodeOpcode])
  | seReg => exact decode_encode_of_encodedBy encodedBy_seReg hrow (by simp [encodeOpcode])
  | ldByte => exact decode_encode_of_encodedBy encodedBy_ldByte hrow (by simp [encodeOpcode])
  | addByte => exact decode_encode_of_encodedBy encodedBy_addByte hrow (by simp [encodeOpcode])
  | ldReg => exact decode_encode_of_encodedBy encodedBy_ldReg hrow (by simp [encodeOpcode])
  | orReg => exact decode_encode_of_encodedBy encodedBy_orReg hrow (by simp [encodeOpcode])
  | andReg => exact decode_encode_of_encodedBy encodedBy_andReg hrow (by simp [encodeOpcode])
  | xorReg => exact decode_encode_of_encodedBy encodedBy_xorReg hrow (by simp [encodeOpcode])
  | addReg => exact decode_encode_of_encodedBy encodedBy_addReg hrow (by simp [encodeOpcode])
  | subReg => exact decode_encode_of_encodedBy encodedBy_subReg hrow (by simp [encodeOpcode])
  | shr => exact decode_encode_of_encodedBy encodedBy_shr hrow (by simp [encodeOpcode])
  | subnReg => exact decode_encode_of_encodedBy encodedBy_subnReg hrow (by simp [encodeOpcode])
  | shl => exact decode_encode_of_encodedBy encodedBy_shl hrow (by simp [encodeOpcode])
  | sneReg => exact decode_encode_of_encodedBy encodedBy_sneReg hrow (by simp [encodeOpcode])
  | ldI => exact decode_encode_of_encodedBy encodedBy_ldI hrow (by simp [encodeOpcode])
  | jpV0 => exact decode_encode_of_encodedBy encodedBy_jpV0 hrow (by simp [encodeOpcode])
  | rnd => exact decode_encode_of_encodedBy encodedBy_rnd hrow (by simp [encodeOpcode])
  | drw => exact decode_encode_of_encodedBy encodedBy_drw hrow (by simp [encodeOpcode])
  | skp => exact decode_encode_of_encodedBy encodedBy_skp hrow (by simp [encodeOpcode])
  | sknp => exact decode_encode_of_encodedBy encodedBy_sknp hrow (by simp [encodeOpcode])
  | ldVxDt => exact decode_encode_of_encodedBy encodedBy_ldVxDt hrow (by simp [encodeOpcode])
  | ldVxK => exact decode_encode_of_encodedBy encodedBy_ldVxK hrow (by simp [encodeOpcode])
  | ldDtVx => exact decode_encode_of_encodedBy encodedBy_ldDtVx hrow (by simp [encodeOpcode])
  | ldStVx => exact decode_encode_of_encodedBy encodedBy_ldStVx hrow (by simp [encodeOpcode])
  | addIVx => exact decode_encode_of_encodedBy encodedBy_addIVx hrow (by simp [encodeOpcode])
  | ldFVx => exact decode_encode_of_encodedBy encodedBy_ldFVx hrow (by simp [encodeOpcode])
  | ldBVx => exact decode_encode_of_encodedBy encodedBy_ldBVx hrow (by simp [encodeOpcode])
  | ldMemVx => exact decode_encode_of_encodedBy encodedBy_ldMemVx hrow (by simp [encodeOpcode])
  | ldVxMem => exact decode_encode_of_encodedBy encodedBy_ldVxMem hrow (by simp [encodeOpcode])

/-- Settles O5: the two bytes are put together to the opcode again, whatever bytes follow. -/
theorem decodeOfEncodeIsTheInstruction : Obligations.DecodeOfEncodeIsTheInstruction := by
  refine fun i rest => ⟨?_, rfl⟩
  show decodeOpcode (opcodeOfBytes _ _) = .ok i
  rw [opcodeOfBytes_bytes, decodeOpcode_encodeOpcode]

/-- Settles O6: the decoder reads an instruction only from the opcode that the encoder gives it. -/
theorem encodeOfDecodeIsTheOpcode : Obligations.EncodeOfDecodeIsTheOpcode :=
  fun _ _ => encodeOpcode_of_decodeOpcode

/-- Settles O1, by evaluation. -/
theorem sampleWordsDecodeAsThePatternsSay : Obligations.SampleWordsDecodeAsThePatternsSay :=
  ⟨rfl, rfl, rfl, rfl, rfl, rfl, rfl, rfl⟩

/-! ### The illegal opcodes -/

theorem decodeAlu_eq_invalid_iff (op : Opcode) : decodeAlu op = .invalidOpcode op ↔
    fieldN op = 0x8 ∨ fieldN op = 0x9 ∨ fieldN op = 0xA ∨ fieldN op = 0xB ∨ fieldN op = 0xC ∨ fieldN op = 0xD ∨
      fieldN op = 0xF := by
  unfold decodeAlu
  simp only [← BitVec.toNat_inj]
  split
  case h_10 => -- no sub-opcode
    have hn := (fieldN op).isLt
    simp only [imp_false, BitVec.ofNat_eq_ofNat, BitVec.toNat_ofNat, true_iff] at *
    omega
  all_goals next hn => simp [hn]

theorem decodeKeys_eq_invalid_iff (op : Opcode) :
    decodeKeys op = .invalidOpcode op ↔ fieldKK op ≠ 0x9E ∧ fieldKK op ≠ 0xA1 := by
  unfold decodeKeys
  simp only [ne_eq, ← BitVec.toNat_inj]
  split
  case h_3 => simp_all
  all_goals next hk => simp [hk]

theorem decodeMisc_eq_invalid_iff (op : Opcode) : decodeMisc op = .invalidOpcode op ↔
    fieldKK op ≠ 0x07 ∧ fieldKK op ≠ 0x0A ∧ fieldKK op ≠ 0x15 ∧ fieldKK op ≠ 0x18 ∧ fieldKK op ≠ 0x1E ∧
      fieldKK op ≠ 0x29 ∧ fieldKK op ≠ 0x33 ∧ fieldKK op ≠ 0x55 ∧ fieldKK op ≠ 0x65 := by
  unfold decodeMisc
  simp only [ne_eq, ← BitVec.toNat_inj]
  split
  case h_10 => simp_all
  all_goals next hk => simp [hk]

/-- The families with an opcode that is no instruction (R83, R88). -/
theorem family_cases (f : Nibble) : f ∈ fullFamilies ∨ f = 0x0 ∨ f = 0x5 ∨ f = 0x8 ∨ f = 0x9 ∨ f = 0xE ∨ f = 0xF := by
  revert f
  decide

theorem not_illegalOpcode_of_fullFamily {op : Opcode} (hf : fieldF op ∈ fullFamilies) : ¬IllegalOpcode op := by
  simp only [fullFamilies, List.mem_cons, List.not_mem_nil, or_false] at hf
  rcases hf with hf | hf | hf | hf | hf | hf | hf | hf | hf | hf <;> simp [IllegalOpcode, hf]

/-- Settles O4, by family: one of the ten full ones, or one whose part of the decoder says what is invalid. -/
theorem illegalOpcodesAreTheTableOfR88 : Obligations.IllegalOpcodesAreTheTableOfR88 := by
  intro op
  obtain hf | hf | hf | hf | hf | hf | hf := family_cases (fieldF op)
  · obtain ⟨i, hi⟩ := decodeOpcode_ok_of_fullFamily hf
    simp [hi, not_illegalOpcode_of_fullFamily hf]
  · have hillegal : IllegalOpcode op ↔ op ≠ 0x00E0 ∧ op ≠ 0x00EE := by simp [IllegalOpcode, hf]
    rw [decodeOpcode_of_family0 hf, hillegal]
    split
    · next hcls => simp [hcls]
    · next hcls =>
      split
      · next hret => simp [hret]
      · next hret => exact iff_of_true rfl ⟨hcls, hret⟩
  · rw [decodeOpcode_of_family5 hf]
    by_cases hn : fieldN op = 0 <;> simp [IllegalOpcode, hf, hn]
  · rw [decodeOpcode_of_family8 hf, decodeAlu_eq_invalid_iff]
    simp [IllegalOpcode, hf]
  · rw [decodeOpcode_of_family9 hf]
    by_cases hn : fieldN op = 0 <;> simp [IllegalOpcode, hf, hn]
  · rw [decodeOpcode_of_familyE hf, decodeKeys_eq_invalid_iff]
    simp [IllegalOpcode, hf]
  · rw [decodeOpcode_of_familyF hf, decodeMisc_eq_invalid_iff]
    simp [IllegalOpcode, hf]

end Sys2Proof
end

section
/-! Proofs about what an instruction can do at all (40_cycle.md R107, 60_exceptions.md R190, 10_state.md R20, R25): it
raises the fault of the matrix, or it completes, writing its own pieces of state and the `PC` of the table. -/

namespace Sys2Proof.Machine

/-! ### What each operation writes -/

theorem State.onlyWrites_of_same_regs {s t : State} {parts : List Part} (hv : t.v = s.v)
    (h : ∀ p, p ∉ parts → p.Same s t) : s.OnlyWrites t noRegs parts :=
  ⟨fun r _ => State.readV_congr hv r, h⟩

theorem State.onlyWrites_writeDt (s : State) (b : Byte) : s.OnlyWrites (s.writeDt b) noRegs [.delayTimer] :=
  State.onlyWrites_of_same_regs rfl fun p hp => by cases p <;> simp_all [Part.Same]

theorem State.onlyWrites_writeSt (s : State) (b : Byte) : s.OnlyWrites (s.writeSt b) noRegs [.soundTimer] :=
  State.onlyWrites_of_same_regs rfl fun p hp => by cases p <;> simp_all [Part.Same]

theorem State.onlyWrites_writeDisp (s : State) (d : Display) : s.OnlyWrites (s.writeDisp d) noRegs [.display] :=
  State.onlyWrites_of_same_regs rfl fun p hp => by cases p <;> simp_all [Part.Same]

theorem State.onlyWrites_writeMem (s : State) (m : Memory) : s.OnlyWrites (s.writeMem m) noRegs [.memory] :=
  State.onlyWrites_of_same_regs rfl fun p hp => by cases p <;> simp_all [Part.Same]

theorem State.onlyWrites_countDraw (s : State) : s.OnlyWrites s.countDraw noRegs [.draws] :=
  State.onlyWrites_of_same_regs rfl fun p hp => by cases p <;> simp_all [Part.Same]

theorem State.onlyWrites_enterWait (s : State) (x : Nibble) : s.OnlyWrites (s.enterWait x) noRegs [.mode, .waitReg] :=
  State.onlyWrites_of_same_regs rfl fun p hp => by cases p <;> simp_all [Part.Same]

/-- A pop and the return's jump. -/
theorem State.onlyWrites_sp_pc (s : State) (sp : Fin 17) (w : Word) :
    s.OnlyWrites (State.writePc { s with sp := sp } w) noRegs [.stackPointer] :=
  State.onlyWrites_of_same_regs rfl fun p hp => by cases p <;> simp_all [Part.Same]

/-- A push and the call's jump. -/
theorem State.onlyWrites_stack_sp_pc (s : State) (stack : Stack) (sp : Fin 17) (w : Word) :
    s.OnlyWrites (State.writePc { s with stack := stack, sp := sp } w) noRegs [.stack, .stackPointer] :=
  State.onlyWrites_of_same_regs rfl fun p hp => by cases p <;> simp_all [Part.Same]

/-! ### Writes one after the other -/

theorem Part.Same.trans {s t u : State} {p : Part} (h₁ : p.Same s t) (h₂ : p.Same t u) : p.Same s u := by
  cases p with
  | memory => exact fun a => (h₂ a).trans (h₁ a)
  | frames => exact ⟨h₂.1.trans h₁.1, h₂.2.trans h₁.2⟩
  | _ => exact Eq.trans h₂ h₁

theorem State.OnlyWrites.trans {s t u : State} {regs regs' : Nibble → Prop} {parts parts' : List Part}
    (h₁ : s.OnlyWrites t regs parts) (h₂ : t.OnlyWrites u regs' parts') :
    s.OnlyWrites u (fun r => regs r ∨ regs' r) (parts ++ parts') := by
  obtain ⟨hregs₁, hparts₁⟩ := h₁
  obtain ⟨hregs₂, hparts₂⟩ := h₂
  refine ⟨fun r hr => ?_, fun p hp => ?_⟩
  · rw [not_or] at hr
    exact (hregs₂ r hr.2).trans (hregs₁ r hr.1)
  · rw [List.mem_append, not_or] at hp
    exact (hparts₁ p hp.1).trans (hparts₂ p hp.2)

theorem State.OnlyWrites.mono {s t : State} {regs regs' : Nibble → Prop} {parts parts' : List Part}
    (h : s.OnlyWrites t regs parts) (hr : ∀ r, regs r → regs' r) (hp : parts ⊆ parts') :
    s.OnlyWrites t regs' parts' :=
  ⟨fun r hn => h.1 r fun hc => hn (hr r hc), fun p hn => h.2 p fun hc => hn (hp hc)⟩

theorem State.onlyWrites_writeResultAndFlag (s : State) (x : Nibble) (result flag : Byte) :
    s.OnlyWrites (s.writeResultAndFlag x result flag) (fun r => r = x ∨ r = vf) [] :=
  (s.onlyWrites_writeV x result).trans ((s.writeV x result).onlyWrites_writeV vf flag)

theorem State.onlyWrites_drawSprite (s : State) (x y : Nibble) (rows : List Byte) :
    s.OnlyWrites (s.drawSprite x y rows) (fun r => r = vf) [.display] :=
  ((s.onlyWrites_writeDisp _).trans (State.onlyWrites_writeV _ vf _)).advance.mono (by simp [noRegs]) (by simp)

theorem State.onlyWrites_randomInto_countDraw (s : State) (x : Nibble) (kk rnd : Byte) :
    s.OnlyWrites (s.randomInto x kk rnd).countDraw (fun r => r = x) [.draws] :=
  ((s.onlyWrites_writeV x _).advance.trans (State.onlyWrites_countDraw _)).mono (by simp [noRegs]) (by simp)

theorem State.onlyWrites_advanceI (s : State) (x : Nibble) : s.OnlyWrites (s.advanceI x) noRegs [.index] :=
  s.onlyWrites_writeI _

/-- A register after a range load: the byte loaded for it, if there is one (R157). -/
theorem State.readV_fill (s : State) (bs : List Byte) (r : Nibble) :
    (s.writeRegs (s.v.fill 0 bs)).readV r = bs.getD r.toNat (s.readV r) := by
  show (Regs.fill s.v 0 bs)[r.toNat]'r.isLt = _
  rw [Regs.fill_getElem, if_pos (Nat.zero_le _), Nat.sub_zero]
  rfl

/-- A range load of `x + 1` bytes writes the registers `V[0]` to `V[x]`. -/
theorem State.onlyWrites_fill (s : State) {x : Nibble} {bs : List Byte} (h : bs.length = x.toNat + 1) :
    s.OnlyWrites (s.writeRegs (s.v.fill 0 bs)) (fun r => r.toNat ≤ x.toNat) [] := by
  refine ⟨fun r hr => ?_, fun p _ => by cases p <;> simp [Part.Same]⟩
  rw [State.readV_fill, List.getD_eq_default _ _ (by omega)]

/-- The writes of `Fx55` (R156). -/
theorem State.onlyWrites_writeMem_advanceI (s : State) (m : Memory) (x : Nibble) :
    s.OnlyWrites ((s.writeMem m).advanceI x).advance noRegs [.memory, .index] :=
  ((s.onlyWrites_writeMem m).trans (State.onlyWrites_advanceI _ x)).advance.mono (by simp [noRegs]) (List.Subset.refl _)

/-- The writes of `Fx65` (R157). -/
theorem State.onlyWrites_fill_advanceI (s : State) {x : Nibble} {bs : List Byte} (h : bs.length = x.toNat + 1) :
    s.OnlyWrites ((s.writeRegs (s.v.fill 0 bs)).advanceI x).advance (fun r => r.toNat ≤ x.toNat) [.index] :=
  ((s.onlyWrites_fill h).trans (State.onlyWrites_advanceI _ x)).advance.mono (by simp [noRegs]) (List.Subset.refl _)

/-! ### What the instructions without an execution check answer -/

section
variable (s : State) (x y : Nibble)

theorem exec_cls : exec .cls s = .next (s.writeDisp 0).advance := rfl

theorem exec_jpV0 (nnn : Addr) : exec (.jpV0 nnn) s = .next (s.writePc (nnn.setWidth 16 + (s.readV 0).setWidth 16)) :=
  rfl

theorem exec_seReg : exec (.seReg x y) s = .next (s.skipIf (s.readV x == s.readV y)) := rfl

theorem exec_sneReg : exec (.sneReg x y) s = .next (s.skipIf (s.readV x != s.readV y)) := rfl

theorem exec_ldReg : exec (.ldReg x y) s = .next (s.writeV x (s.readV y)).advance := rfl

theorem exec_orReg : exec (.orReg x y) s = .next (s.writeV x (s.readV x ||| s.readV y)).advance := rfl

theorem exec_andReg : exec (.andReg x y) s = .next (s.writeV x (s.readV x &&& s.readV y)).advance := rfl

theorem exec_xorReg : exec (.xorReg x y) s = .next (s.writeV x (s.readV x ^^^ s.readV y)).advance := rfl

theorem exec_addReg : exec (.addReg x y) s =
    .next (s.writeResultAndFlag x (s.readV x + s.readV y) (carryFlag (s.readV x) (s.readV y))).advance := rfl

theorem exec_subReg : exec (.subReg x y) s =
    .next (s.writeResultAndFlag x (s.readV x - s.readV y) (notBorrowFlag (s.readV x) (s.readV y))).advance := rfl

theorem exec_subnReg : exec (.subnReg x y) s =
    .next (s.writeResultAndFlag x (s.readV y - s.readV x) (notBorrowFlag (s.readV y) (s.readV x))).advance := rfl

theorem exec_shr : exec (.shr x y) s =
    .next (s.writeResultAndFlag x (s.readV x >>> 1) (shiftedOutRight (s.readV x))).advance := rfl

theorem exec_shl : exec (.shl x y) s =
    .next (s.writeResultAndFlag x (s.readV x <<< 1) (shiftedOutLeft (s.readV x))).advance := rfl

theorem exec_rnd (kk : Byte) : exec (.rnd x kk) s = .next (s.randomInto x kk (Config.rnd s.draws)).countDraw := rfl

theorem exec_ldVxDt : exec (.ldVxDt x) s = .next (s.writeV x s.dt).advance := rfl

theorem exec_ldVxK : exec (.ldVxK x) s = .next (s.enterWait x) := rfl

theorem exec_ldDtVx : exec (.ldDtVx x) s = .next (s.writeDt (s.readV x)).advance := rfl

theorem exec_ldStVx : exec (.ldStVx x) s = .next (s.writeSt (s.readV x)).advance := rfl

theorem exec_addIVx : exec (.addIVx x) s = .next (s.writeI (s.i + (s.readV x).setWidth 16)).advance := rfl

end

/-! ### The faults of the matrix -/

/-- An entry of the matrix, from what the instruction does when its condition holds. -/
theorem exec_of_fault_entry {s : State} {i : Instr} {c : Prop} [Decidable c] {f g : FaultCause}
    (h : (if c then some g else none) = some f) (hexec : c → exec i s = .next (s.raise g)) :
    exec i s = .next (s.raise f) := by
  obtain ⟨hc, hgf⟩ := Option.ite_none_right_eq_some.mp h
  cases hgf
  exact hexec hc

/-- An instruction whose condition of R190 holds raises that fault, and nothing else (R177). -/
theorem exec_of_fault {s : State} {i : Instr} {f : FaultCause} (h : faultOf s i = some f) :
    exec i s = .next (s.raise f) := by
  cases i with
  | ret => exact exec_of_fault_entry h (exec_ret_of_empty s)
  | call nnn => exact exec_of_fault_entry h (exec_call_of_full s nnn)
  | skp x => exact exec_of_fault_entry h (exec_skp_out_of_range s x)
  | sknp x => exact exec_of_fault_entry h (exec_sknp_out_of_range s x)
  | drw x y n => exact exec_of_fault_entry h fun ⟨hn, hi⟩ => exec_drw_out_of_memory s x y n hn (by omega)
  | ldBVx x => exact exec_of_fault_entry h fun hi => exec_ldBVx_out_of_memory s x (by omega)
  | ldMemVx x => exact exec_of_fault_entry h (exec_ldMemVx_out_of_memory s x)
  | ldVxMem x => exact exec_of_fault_entry h (exec_ldVxMem_out_of_memory s x)
  | _ => cases h

/-! ### An instruction that completes -/

/-- The pieces of state other than registers and `PC` that an instruction writes when it completes (R20). -/
def writtenParts : Instr → List Part
  | .cls => [.display]
  | .drw _ _ _ => [.display]
  | .ret => [.stackPointer]
  | .call _ => [.stack, .stackPointer]
  | .ldI _ => [.index]
  | .addIVx _ => [.index]
  | .ldFVx _ => [.index]
  | .ldVxMem _ => [.index]
  | .ldMemVx _ => [.memory, .index]
  | .ldBVx _ => [.memory]
  | .rnd _ _ => [.draws]
  | .ldVxK _ => [.mode, .waitReg]
  | .ldDtVx _ => [.delayTimer]
  | .ldStVx _ => [.soundTimer]
  | _ => []

/-- What holds of the state after an instruction that completes: the `PC` of R107, the writes of R20 and R25; and memory
is the same list where it is not written. -/
structure State.Completes (s : State) (i : Instr) (t : State) : Prop where
  pc : t.pc.toNat = pcAfter s i
  writes : s.OnlyWrites t i.WritesV (writtenParts i)
  mem : Part.memory ∉ writtenParts i → t.mem = s.mem

/-- The skip of R107 as the table writes it. -/
theorem State.SkipsIf.toNat_pc {s t : State} {c : Prop} [Decidable c] (h : s.SkipsIf t c) :
    t.pc.toNat = if c then (s.pc.toNat + 4) % 65536 else (s.pc.toNat + 2) % 65536 := by
  obtain ⟨hskip, hnext⟩ := h
  split
  · exact hskip ‹c›
  · exact hnext ‹¬c›

/-- The sum of R118. -/
theorem toNat_pc_of_indexed (nnn : Addr) (b : Byte) :
    (nnn.setWidth 16 + b.setWidth 16 : Word).toNat = (nnn.toNat + b.toNat) % 65536 := by
  rw [BitVec.toNat_add, toNat_pc_of_addr, BitVec.toNat_setWidth_of_le (by decide)]

/-- The popped entry as a number, plus 2 (R115). -/
theorem toNat_pc_of_popped (stack : Stack) {k : Nat} (hk : k < 16) :
    (stack[k] + 2#16 : Word).toNat = ((stack.toList.getD k 0).toNat + 2) % 65536 := by
  rw [List.getD_eq_getElem _ _ (by simpa using hk), Vector.getElem_toList]
  exact BitVec.toNat_add _ _

/-- An entry of the matrix raises no fault only if its condition fails. -/
theorem not_of_ite_eq_none {c : Prop} [Decidable c] {f : FaultCause} (h : (if c then some f else none) = none) : ¬c :=
  fun hc => nomatch (if_pos hc).symm.trans h

/-- An instruction whose condition of R190 does not hold completes. -/
theorem exec_completes {s : State} {i : Instr} (h : faultOf s i = none) :
    ∃ t, exec i s = .next t ∧ s.Completes i t := by
  have hskip (c : Bool) : Part.memory ∉ writtenParts i → (s.skipIf c).mem = s.mem := fun _ => s.skipIf_mem c
  cases i with
  | cls => exact ⟨_, exec_cls s, State.advances_advance rfl, (s.onlyWrites_writeDisp _).advance, fun _ => rfl⟩
  | ret =>
    have hsp := not_of_ite_eq_none h
    exact ⟨_, exec_ret_of_entry s (by omega), toNat_pc_of_popped s.stack (by omega), s.onlyWrites_sp_pc _ _,
      fun _ => rfl⟩
  | jp nnn => exact ⟨_, exec_jp s nnn, toNat_pc_of_addr nnn, s.onlyWrites_writePc _, fun _ => rfl⟩
  | call nnn =>
    have hsp := not_of_ite_eq_none h
    exact ⟨_, exec_call_of_room s nnn (by omega), toNat_pc_of_addr nnn, s.onlyWrites_stack_sp_pc _ _ _, fun _ => rfl⟩
  | seByte x kk =>
    exact ⟨_, exec_seByte s x kk, (s.skipsIf_skipIf beq_iff_eq).toNat_pc, s.onlyWrites_skipIf _, hskip _⟩
  | sneByte x kk =>
    exact ⟨_, exec_sneByte s x kk, (s.skipsIf_skipIf bne_iff_ne).toNat_pc, s.onlyWrites_skipIf _, hskip _⟩
  | seReg x y =>
    exact ⟨_, exec_seReg s x y, (s.skipsIf_skipIf beq_iff_eq).toNat_pc, s.onlyWrites_skipIf _, hskip _⟩
  | sneReg x y =>
    exact ⟨_, exec_sneReg s x y, (s.skipsIf_skipIf bne_iff_ne).toNat_pc, s.onlyWrites_skipIf _, hskip _⟩
  | skp x =>
    have hx := not_of_ite_eq_none h
    exact ⟨_, exec_skp_of_key s x (by omega), (s.skipsIf_skipIf Iff.rfl).toNat_pc, s.onlyWrites_skipIf _, hskip _⟩
  | sknp x =>
    have hx := not_of_ite_eq_none h
    exact ⟨_, exec_sknp_of_key s x (by omega), (s.skipsIf_skipIf (Bool.not_eq_true' _).to_iff).toNat_pc,
      s.onlyWrites_skipIf _, hskip _⟩
  | jpV0 nnn => exact ⟨_, exec_jpV0 s nnn, toNat_pc_of_indexed _ _, s.onlyWrites_writePc _, fun _ => rfl⟩
  | drw x y n =>
    have hi := not_of_ite_eq_none h
    exact ⟨_, exec_drw_in_memory s x y n (by omega), State.advances_advance rfl, s.onlyWrites_drawSprite _ _ _,
      fun _ => rfl⟩
  | ldBVx x =>
    have hi := not_of_ite_eq_none h
    exact ⟨_, exec_ldBVx_in_memory s x (by omega), State.advances_advance rfl, (s.onlyWrites_writeMem _).advance,
      fun hm => absurd List.mem_cons_self hm⟩
  | ldMemVx x =>
    have hi := not_of_ite_eq_none h
    exact ⟨_, exec_ldMemVx_in_memory s x (by omega), State.advances_advance rfl,
      s.onlyWrites_writeMem_advanceI _ x, fun hm => absurd List.mem_cons_self hm⟩
  | ldVxMem x =>
    have hi := not_of_ite_eq_none h
    exact ⟨_, exec_ldVxMem_in_memory s x (by omega), State.advances_advance rfl,
      s.onlyWrites_fill_advanceI (Memory.bytes_length _ _ _), fun _ => rfl⟩
  | ldVxK x => exact ⟨_, exec_ldVxK s x, rfl, s.onlyWrites_enterWait x, fun _ => rfl⟩
  | rnd x kk =>
    exact ⟨_, exec_rnd s x kk, State.advances_advance rfl, s.onlyWrites_randomInto_countDraw x kk _, fun _ => rfl⟩
  | ldI | addIVx | ldFVx => exact ⟨_, rfl, State.advances_advance rfl, (s.onlyWrites_writeI _).advance, fun _ => rfl⟩
  | ldDtVx => exact ⟨_, rfl, State.advances_advance rfl, (s.onlyWrites_writeDt _).advance, fun _ => rfl⟩
  | ldStVx => exact ⟨_, rfl, State.advances_advance rfl, (s.onlyWrites_writeSt _).advance, fun _ => rfl⟩
  | addReg x | subReg x | subnReg x | shr x | shl x =>
    exact ⟨_, rfl, State.advances_advance rfl, (s.onlyWrites_writeResultAndFlag x _ _).advance, fun _ => rfl⟩
  | ldByte x | addByte x | ldReg x | orReg x | andReg x | xorReg x | ldVxDt x =>
    exact ⟨_, rfl, State.advances_advance rfl, (s.onlyWrites_writeV x _).advance, fun _ => rfl⟩

/-- All an instruction can do (R105): the fault of the matrix, or its effect. -/
theorem exec_cases (s : State) (i : Instr) :
    (∃ f, faultOf s i = some f ∧ exec i s = .next (s.raise f)) ∨
      (faultOf s i = none ∧ ∃ t, exec i s = .next t ∧ s.Completes i t) := by
  cases hf : faultOf s i with
  | some f => exact .inl ⟨f, rfl, exec_of_fault hf⟩
  | none => exact .inr ⟨rfl, exec_completes hf⟩

/-- The same of a known next state. -/
theorem exec_next_cases {s t : State} {i : Instr} (h : exec i s = .next t) :
    (∃ f, faultOf s i = some f ∧ t = s.raise f) ∨ (faultOf s i = none ∧ s.Completes i t) := by
  obtain ⟨f, hf, hexec⟩ | ⟨hf, u, hexec, hu⟩ := exec_cases s i
  · exact .inl ⟨f, hf, Host.Outcome.next.inj (h.symm.trans hexec)⟩
  · obtain rfl : t = u := Host.Outcome.next.inj (h.symm.trans hexec)
    exact .inr ⟨hf, hu⟩

/-! ### The column "Written by" of R20 -/

section
variable {i : Instr}

theorem memory_notMem_writtenParts (h : ∀ x, i ≠ .ldBVx x ∧ i ≠ .ldMemVx x) : .memory ∉ writtenParts i := by
  cases i <;> simp_all [writtenParts]

theorem stack_notMem_writtenParts (h : ∀ nnn, i ≠ .call nnn) : .stack ∉ writtenParts i := by
  cases i <;> simp_all [writtenParts]

theorem stackPointer_notMem_writtenParts (h : ∀ nnn, i ≠ .call nnn ∧ i ≠ .ret) : .stackPointer ∉ writtenParts i := by
  cases i <;> simp_all [writtenParts]

theorem delayTimer_notMem_writtenParts (h : ∀ x, i ≠ .ldDtVx x) : .delayTimer ∉ writtenParts i := by
  cases i <;> simp_all [writtenParts]

theorem soundTimer_notMem_writtenParts (h : ∀ x, i ≠ .ldStVx x) : .soundTimer ∉ writtenParts i := by
  cases i <;> simp_all [writtenParts]

theorem display_notMem_writtenParts (h : ∀ x y n, i ≠ .cls ∧ i ≠ .drw x y n) : .display ∉ writtenParts i := by
  cases i <;> simp_all [writtenParts]

theorem index_notMem_writtenParts
    (h : ∀ nnn x, i ≠ .ldI nnn ∧ i ≠ .addIVx x ∧ i ≠ .ldFVx x ∧ i ≠ .ldMemVx x ∧ i ≠ .ldVxMem x) :
    .index ∉ writtenParts i := by
  cases i <;> simp_all [writtenParts]

theorem waitReg_notMem_writtenParts (h : ∀ x, i ≠ .ldVxK x) : .waitReg ∉ writtenParts i := by
  cases i <;> simp_all [writtenParts]

theorem mode_notMem_writtenParts (h : ∀ x, i ≠ .ldVxK x) : .mode ∉ writtenParts i := by
  cases i <;> simp_all [writtenParts]

theorem draws_notMem_writtenParts (h : ∀ x kk, i ≠ .rnd x kk) : .draws ∉ writtenParts i := by
  cases i <;> simp_all [writtenParts]

/-- What no completed instruction writes. -/
theorem notMem_writtenParts {p : Part} (hp : p ∈ [Part.keys, .faultCause, .outputs, .phase, .frames, .parameters]) :
    p ∉ writtenParts i := by
  cases i <;> revert p <;> simp [writtenParts]

end

/-! ### The statements -/

/-- Settles O16: an instruction that has not faulted has completed, with the `PC` of the table, and a call that
completes has found room for its own address. -/
theorem everyInstructionSetsPcAsTheTableSays : Obligations.EveryInstructionSetsPcAsTheTableSays := by
  refine ⟨fun i s t _ h ht => ?_, fun s t nnn _ h ht => ?_⟩
  · obtain ⟨f, -, rfl⟩ | ⟨-, hc⟩ := exec_next_cases h
    · exact absurd rfl ht
    · exact hc.pc
  · by_cases hsp : s.sp.val < 16
    · rw [exec_call_of_room s nnn hsp] at h
      cases h
      simp [List.getD]
    · rw [exec_call_of_full s nnn (by omega)] at h
      cases h
      exact absurd rfl ht

theorem State.Completes.kept {s t : State} {i : Instr} (hc : s.Completes i t) {p : Part}
    (hp : p ∈ [Part.keys, .faultCause, .outputs, .phase, .frames, .parameters]) : p.Same s t :=
  hc.writes.2 p (notMem_writtenParts hp)

theorem State.Completes.faultCause_eq {s t : State} {i : Instr} (hc : s.Completes i t) : t.faultCause = s.faultCause :=
  hc.kept (p := .faultCause) (by simp)

/-- A completed instruction leaves the mode, but for `Fx0A`, which enters the wait. -/
theorem State.Completes.mode_cases {s t : State} {i : Instr} (hc : s.Completes i t) (h : exec i s = .next t) :
    t.mode = s.mode ∨ ∃ x, i = .ldVxK x ∧ t = s.enterWait x := by
  by_cases hwait : ∃ x, i = .ldVxK x
  · obtain ⟨x, rfl⟩ := hwait
    exact .inr ⟨x, rfl, (Host.Outcome.next.inj h).symm⟩
  · exact .inl (hc.writes.2 .mode (mode_notMem_writtenParts (not_exists.mp hwait)))

theorem State.Completes.mode_ne_faulted {s t : State} {i : Instr} (hc : s.Completes i t) (h : exec i s = .next t)
    (hm : s.mode = .running) : t.mode ≠ .faulted := by
  obtain hmode | ⟨x, -, rfl⟩ := hc.mode_cases h
  · rw [hmode, hm]
    decide
  · exact (by decide : Mode.awaitingKey ≠ .faulted)

/-- Settles O17: the condition of the matrix decides between the fault and completion, and what completes leaves the
cause and does not fault. -/
theorem faultsAreExactlyTheMatrix : Obligations.FaultsAreExactlyTheMatrix := by
  refine ⟨fun i s f hf => exec_of_fault hf, fun i s hm hf => ?_⟩
  obtain ⟨t, h, hc⟩ := exec_completes hf
  exact ⟨t, h, hc.mode_ne_faulted h hm, hc.faultCause_eq⟩

/-- Settles O18: a fault writes mode and cause, and of what completes the table of written pieces says the rest. -/
theorem onlyTheNamedInstructionsWriteEachPieceOfState :
    Obligations.OnlyTheNamedInstructionsWriteEachPieceOfState := by
  intro i s t h
  obtain ⟨f, -, rfl⟩ | ⟨-, hc⟩ := exec_next_cases h
  · exact ⟨fun _ _ => rfl, fun _ => rfl, fun _ => rfl, fun _ => rfl, fun _ => rfl, fun _ => rfl, fun _ => rfl,
      fun _ => rfl, fun _ => rfl, fun _ => rfl, fun _ => rfl, fun _ => .inr rfl, fun hpc => absurd rfl hpc,
      rfl, rfl, rfl, rfl, rfl, rfl⟩
  · obtain ⟨hregs, hparts⟩ := hc.writes
    have hcause := hc.faultCause_eq
    obtain ⟨hframeNo, hinputs⟩ : Part.frames.Same s t := hc.kept (by simp)
    refine ⟨hregs, fun hi => hc.mem (memory_notMem_writtenParts hi),
      fun hi => hparts .stack (stack_notMem_writtenParts hi),
      fun hi => hparts .stackPointer (stackPointer_notMem_writtenParts hi),
      fun hi => hparts .delayTimer (delayTimer_notMem_writtenParts hi),
      fun hi => hparts .soundTimer (soundTimer_notMem_writtenParts hi),
      fun hi => hparts .display (display_notMem_writtenParts hi),
      fun hi => hparts .index (index_notMem_writtenParts hi),
      fun hi => hparts .waitReg (waitReg_notMem_writtenParts hi),
      fun hi => hparts .draws (draws_notMem_writtenParts hi),
      fun hne => absurd hcause hne, fun hne => .inl ?_, fun hne => ?_,
      hc.kept (p := .keys) (by simp), hc.kept (p := .outputs) (by simp), hc.kept (p := .phase) (by simp), hframeNo,
      hinputs, hc.kept (p := .parameters) (by simp)⟩
    · obtain hmode | ⟨x, rfl, rfl⟩ := hc.mode_cases h
      · exact absurd hmode hne
      · exact ⟨x, rfl, rfl⟩
    · obtain hmode | ⟨x, -, rfl⟩ := hc.mode_cases h
      · refine ⟨?_, hmode, hcause⟩
        rintro x rfl
        exact hne (BitVec.eq_of_toNat_eq hc.pc)
      · exact absurd rfl hne

end Sys2Proof.Machine
end

section
/-! Proofs about the instructions on registers, stack, keys and timers, each by its effect and its writes (41_flow.md,
42_skip.md, 43_load_add_rand.md, 44_alu.md, 45_display.md, 46_keys.md, 47_timer_index_mem.md). -/

namespace Sys2Proof.Machine

/-! ### Call and return (R115, R117, R119) -/

/-- Settles O34: with room the push and the jump are the effect, with none the fault is. -/
theorem callPushesItsOwnAddress : Obligations.CallPushesItsOwnAddress := by
  refine fun s nnn => ⟨fun hroom => ⟨_, exec_call_of_room s nnn hroom, toNat_pc_of_addr nnn, rfl, fun k hk => ?_,
    s.onlyWrites_stack_sp_pc _ _ _⟩, exec_call_of_full s nnn⟩
  simp only [State.writePc_stack, Vector.getElem_set, eq_comm]

/-- Settles O35: with an entry the pop and the jump past it are the effect, with none the fault is. -/
theorem returnContinuesAfterThePoppedCall : Obligations.ReturnContinuesAfterThePoppedCall := by
  refine fun s => ⟨fun k hk hsp => ?_, exec_ret_of_empty s⟩
  refine ⟨_, exec_ret_of_entry s (by omega), by simp [hsp], ?_, s.onlyWrites_sp_pc _ _⟩
  simp only [State.writePc_pc, hsp, Nat.add_sub_cancel]
  exact BitVec.toNat_add _ _

/-- Settles O36: the entry that the return pops is the address that the call pushed. -/
theorem callThenReturnContinuesAfterTheCall : Obligations.CallThenReturnContinuesAfterTheCall := by
  intro s t u nnn hroom hpc hcall hsp hlive
  obtain ⟨t', hcall', -, htsp, hstack, -⟩ := (callPushesItsOwnAddress s nnn).1 hroom
  obtain rfl : t = t' := Host.Outcome.next.inj (hcall.symm.trans hcall')
  have husp : u.sp.val = s.sp.val + 1 := by rw [hsp, htsp]
  obtain ⟨w, hret, hwsp, hwpc, -⟩ := (returnContinuesAfterThePoppedCall u).1 s.sp.val hroom husp
  have hentry : u.stack[s.sp.val] = s.pc := by rw [hlive _ hroom (by omega), hstack, if_pos rfl]
  refine ⟨w, hret, ?_, Fin.ext hwsp⟩
  rw [hwpc, hentry]
  omega

/-! ### The indexed jump (R118) -/

/-- Settles O37: a sum of 12 and 8 bits is at most 0x10FE. -/
theorem indexedJumpAddsV0 : Obligations.IndexedJumpAddsV0 := by
  intro s nnn
  have hsum := toNat_pc_of_indexed nnn (s.readV 0)
  refine ⟨_, exec_jpV0 s nnn, hsum, ?_, s.onlyWrites_writePc _⟩
  have hnnn := nnn.isLt
  have hv := (s.readV 0).isLt
  rw [State.writePc_pc, hsum]
  omega

/-! ### The register skips (R122 to R124) -/

theorem State.pc_skipIf_ne_not (s : State) (c : Bool) : (s.skipIf c).pc ≠ (s.skipIf (!c)).pc := by
  cases c <;> simp

/-- Settles O39: the two conditions are opposite, so exactly one of the two skips. -/
theorem registerSkipsCompareTwoRegisters : Obligations.RegisterSkipsCompareTwoRegisters := by
  intro s x y
  have heq : (s.readV x == s.readV y) = true ↔ (s.readV x).toNat = (s.readV y).toNat :=
    beq_iff_eq.trans BitVec.toNat_inj.symm
  have hne : (s.readV x != s.readV y) = true ↔ (s.readV x).toNat ≠ (s.readV y).toNat :=
    bne_iff_ne.trans BitVec.toNat_inj.symm.not
  exact ⟨_, _, exec_seReg s x y, exec_sneReg s x y, s.skipsIf_skipIf heq, s.skipsIf_skipIf hne,
    s.pc_skipIf_ne_not _, s.onlyWrites_skipIf _, s.onlyWrites_skipIf _⟩

/-! ### The random byte (R128) -/

theorem State.readV_randomInto_countDraw (s : State) (x : Nibble) (kk rnd : Byte) :
    (s.randomInto x kk rnd).countDraw.readV x = rnd &&& kk :=
  s.readV_writeV_same x _

/-- Settles O43: the one register written is the drawn byte AND `kk`, and the draw is counted. -/
theorem randomByteIsMasked : Obligations.RandomByteIsMasked := by
  intro s x kk
  refine ⟨_, exec_rnd s x kk, fun k => ?_, fun k hk => ?_, rfl, State.advances_advance (s.writeV_pc x _),
    s.onlyWrites_randomInto_countDraw x kk _⟩
  · rw [State.readV_randomInto_countDraw, BitVec.getLsbD_and]
  · rw [State.readV_randomInto_countDraw, BitVec.getLsbD_and, hk, Bool.and_false]

/-! ### Copy and logic (R130 to R133) -/

theorem State.readV_writeV_advance (s : State) (x : Nibble) (b : Byte) : (s.writeV x b).advance.readV x = b := by
  rw [State.readV_advance, State.readV_writeV_same]

/-- What a write of one register and the advance leave: the frame that the four instructions share. -/
theorem State.frame_writeV_advance (s : State) (x : Nibble) (b : Byte) :
    s.Advances (s.writeV x b).advance ∧ s.OnlyWrites (s.writeV x b).advance (fun r => r = x) [] :=
  ⟨State.advances_advance (s.writeV_pc x b), (s.onlyWrites_writeV x b).advance⟩

/-- Settles O44: each writes `V[x]` alone, with the operation on the two bytes. -/
theorem copyAndLogicWriteOnlyTheDestination : Obligations.CopyAndLogicWriteOnlyTheDestination := by
  refine fun s x y => ⟨⟨_, exec_ldReg s x y, s.readV_writeV_advance x _, s.frame_writeV_advance x _⟩,
    ⟨_, exec_orReg s x y, fun k => ?_, s.frame_writeV_advance x _⟩,
    ⟨_, exec_andReg s x y, fun k => ?_, s.frame_writeV_advance x _⟩,
    ⟨_, exec_xorReg s x y, fun k => ?_, s.frame_writeV_advance x _⟩⟩
  · rw [State.readV_writeV_advance, BitVec.getLsbD_or]
  · rw [State.readV_writeV_advance, BitVec.getLsbD_and]
  · rw [State.readV_writeV_advance, BitVec.getLsbD_xor]

/-! ### Arithmetic with a flag (R134 to R138) -/

theorem toNat_flagByte (c : Bool) : (flagByte c).toNat = if c = true then 1 else 0 := by
  cases c <;> rfl

theorem toNat_carryFlag (a b : Byte) : (carryFlag a b).toNat = if a.toNat + b.toNat > 255 then 1 else 0 := by
  simp only [carryFlag, toNat_flagByte, decide_eq_true_eq]

theorem toNat_notBorrowFlag (a b : Byte) : (notBorrowFlag a b).toNat = if a.toNat ≥ b.toNat then 1 else 0 := by
  simp only [notBorrowFlag, toNat_flagByte, decide_eq_true_eq]

/-- Bit `k` of a byte as a number. -/
theorem toNat_flagByte_getLsbD (a : Byte) (k : Nat) : (flagByte (a.getLsbD k)).toNat = a.toNat / 2 ^ k % 2 := by
  simp only [toNat_flagByte, BitVec.getLsbD, Nat.testBit_eq_decide_div_mod_eq, decide_eq_true_eq]
  have hbit := Nat.mod_two_eq_zero_or_one (a.toNat / 2 ^ k)
  split <;> omega

theorem toNat_shiftedOutRight (a : Byte) : (shiftedOutRight a).toNat = a.toNat % 2 := by
  rw [shiftedOutRight, toNat_flagByte_getLsbD, Nat.pow_zero, Nat.div_one]

theorem toNat_shiftedOutLeft (a : Byte) : (shiftedOutLeft a).toNat = a.toNat / 128 := by
  have ha := a.isLt
  rw [shiftedOutLeft, toNat_flagByte_getLsbD]
  omega

/-- A difference of bytes is the integer difference modulo 256. -/
theorem toNat_sub_byte (a b : Byte) : ((a - b).toNat : Int) = ((a.toNat : Int) - (b.toNat : Int)) % 256 := by
  have ha := a.isLt
  have hb := b.isLt
  rw [BitVec.toNat_sub]
  omega

theorem toNat_shiftLeft_one (a : Byte) : (a <<< 1).toNat = a.toNat * 2 % 256 := by
  rw [BitVec.toNat_shiftLeft, Nat.shiftLeft_eq, Nat.pow_one]

theorem toNat_shiftRight_one (a : Byte) : (a >>> 1).toNat = a.toNat / 2 := by
  rw [BitVec.toNat_ushiftRight, Nat.shiftRight_eq_div_pow, Nat.pow_one]

section
variable (s : State) (x : Nibble) (result flag : Byte)

theorem State.readV_vf_writeResultAndFlag_advance : (s.writeResultAndFlag x result flag).advance.readV vf = flag := by
  rw [State.readV_advance, State.readV_writeResultAndFlag, if_pos rfl]

theorem State.readV_writeResultAndFlag_advance (hx : x ≠ vf) :
    (s.writeResultAndFlag x result flag).advance.readV x = result := by
  rw [State.readV_advance, State.readV_writeResultAndFlag, if_neg hx, if_pos rfl]

theorem State.advances_writeResultAndFlag : s.Advances (s.writeResultAndFlag x result flag).advance :=
  State.advances_advance (s.writeResultAndFlag_pc x result flag)

end

/-- Settles O45: the flag is written last, so it is the carry whatever `x` is. -/
theorem addRegistersSetsCarry : Obligations.AddRegistersSetsCarry := by
  refine fun s x y => ⟨_, exec_addReg s x y, ?_, fun hx => ?_, s.advances_writeResultAndFlag x _ _,
    (s.onlyWrites_writeResultAndFlag x _ _).advance⟩
  · rw [State.readV_vf_writeResultAndFlag_advance, toNat_carryFlag]
  · rw [State.readV_writeResultAndFlag_advance _ _ _ _ hx]
    exact BitVec.toNat_add _ _

/-- A subtraction `a - b` into `V[x]` (R135, R137). -/
theorem State.writeResultAndFlag_sub (s : State) (x : Nibble) (a b : Byte) :
    ((s.writeResultAndFlag x (a - b) (notBorrowFlag a b)).advance.readV vf).toNat =
        (if a.toNat ≥ b.toNat then 1 else 0) ∧
      (x ≠ vf → (((s.writeResultAndFlag x (a - b) (notBorrowFlag a b)).advance.readV x).toNat : Int) =
        ((a.toNat : Int) - (b.toNat : Int)) % 256) ∧
      s.Advances (s.writeResultAndFlag x (a - b) (notBorrowFlag a b)).advance ∧
      s.OnlyWrites (s.writeResultAndFlag x (a - b) (notBorrowFlag a b)).advance (fun r => r = x ∨ r = vf) [] := by
  refine ⟨?_, fun hx => ?_, s.advances_writeResultAndFlag x _ _, (s.onlyWrites_writeResultAndFlag x _ _).advance⟩
  · rw [State.readV_vf_writeResultAndFlag_advance, toNat_notBorrowFlag]
  · rw [State.readV_writeResultAndFlag_advance _ _ _ _ hx, toNat_sub_byte]

/-- Settles O46: the two are one subtraction with the operands exchanged. -/
theorem subtractionsSetNotBorrow : Obligations.SubtractionsSetNotBorrow :=
  fun s x y => ⟨⟨_, exec_subReg s x y, s.writeResultAndFlag_sub x _ _⟩,
    ⟨_, exec_subnReg s x y, s.writeResultAndFlag_sub x _ _⟩⟩

/-- Settles O47: the flag is the bit shifted out, and `y` is in neither effect. -/
theorem shiftsMoveOneBitIntoVf : Obligations.ShiftsMoveOneBitIntoVf := by
  refine fun s x y => ⟨⟨_, exec_shr s x y, ?_, fun hx => ?_, s.advances_writeResultAndFlag x _ _,
      (s.onlyWrites_writeResultAndFlag x _ _).advance, exec_shr s x⟩,
    ⟨_, exec_shl s x y, ?_, fun hx => ?_, s.advances_writeResultAndFlag x _ _,
      (s.onlyWrites_writeResultAndFlag x _ _).advance, exec_shl s x⟩⟩
  · rw [State.readV_vf_writeResultAndFlag_advance, toNat_shiftedOutRight]
  · rw [State.readV_writeResultAndFlag_advance _ _ _ _ hx, toNat_shiftRight_one]
  · rw [State.readV_vf_writeResultAndFlag_advance, toNat_shiftedOutLeft]
  · rw [State.readV_writeResultAndFlag_advance _ _ _ _ hx, toNat_shiftLeft_one]

/-! ### Clearing the display (R140) -/

/-- Settles O48: the display written is the one with no pixel set. -/
theorem clearSetsEveryPixelToZero : Obligations.ClearSetsEveryPixelToZero :=
  ⟨encodedBy_fixed rfl, fun s => ⟨_, exec_cls s, fun x y _ _ => Display.pixel_zero x y,
    State.advances_advance (s.writeDisp_pc _), (s.onlyWrites_writeDisp _).advance⟩⟩

/-! ### Keys (R145 to R147) -/

/-- Settles O51: up to 15 the register numbers a key, and above that both instructions raise the fault. -/
theorem keySkipsTestTheKeyInTheRegister : Obligations.KeySkipsTestTheKeyInTheRegister := by
  refine fun s x => ⟨fun hkey => ⟨_, _, exec_skp_of_key s x hkey, exec_sknp_of_key s x hkey, ?_, ?_,
    s.onlyWrites_skipIf _, s.onlyWrites_skipIf _⟩,
    fun habove => ⟨exec_skp_out_of_range s x habove, exec_sknp_out_of_range s x habove⟩⟩
  · exact s.skipsIf_skipIf Iff.rfl
  · exact s.skipsIf_skipIf (Bool.not_eq_true' _).to_iff

/-- Settles O52: entering the wait writes mode and `WAITREG` only. -/
theorem waitForKeyHoldsPc : Obligations.WaitForKeyHoldsPc :=
  fun s x => ⟨_, exec_ldVxK s x, rfl, rfl, rfl, s.onlyWrites_enterWait x⟩

/-! ### Timers and index (R150 to R153) -/

/-- Settles O53: each row decodes by its low byte, and each instruction moves one byte. -/
theorem timerInstructionsMoveOneByte : Obligations.TimerInstructionsMoveOneByte :=
  ⟨encodedBy_ldVxDt, encodedBy_ldDtVx, encodedBy_ldStVx, fun s x =>
    ⟨⟨_, exec_ldVxDt s x, s.readV_writeV_advance x _, s.frame_writeV_advance x _⟩,
      ⟨_, exec_ldDtVx s x, rfl, State.advances_advance (s.writeDt_pc _), (s.onlyWrites_writeDt _).advance⟩,
      ⟨_, exec_ldStVx s x, rfl, State.advances_advance (s.writeSt_pc _), (s.onlyWrites_writeSt _).advance⟩⟩⟩

/-- Settles O54: the sum of two 16-bit values, one of them a byte. -/
theorem addToIndexWrapsAt65536 : Obligations.AddToIndexWrapsAt65536 := by
  refine fun s x => ⟨_, exec_addIVx s x, ?_, State.advances_advance (s.writeI_pc _),
    (s.onlyWrites_writeI _).advance⟩
  rw [State.advance_i, State.writeI_i, BitVec.toNat_add, BitVec.toNat_setWidth_of_le (by decide)]

end Sys2Proof.Machine
end

section
/-! Proofs about the transfer instructions (47_timer_index_mem.md R155 to R157) and the fetch that follows a store
(20_memory.md R71): memory byte by byte. -/

namespace Sys2Proof.Machine

/-! ### A byte after a store -/

/-- The byte at `a` after a range has been stored from `I` on. -/
theorem State.byte_putList_eq_byteAfterStore {s : State} {bs : List Byte} {stored : Nat → Byte} (hwf : s.mem.wf = true)
    (hfits : s.i.toNat + bs.length ≤ 0x1000) (hbs : ∀ k d, k < bs.length → bs.getD k d = stored k) (a : Nat) :
    (s.mem.putList s.i.toNat bs).byte a = s.byteAfterStore bs.length stored a := by
  rw [Memory.byte_putList bs a hwf hfits, State.byteAfterStore]
  by_cases hle : s.i.toNat ≤ a
  · by_cases hlt : a < s.i.toNat + bs.length
    · rw [if_pos hle, if_pos ⟨hle, hlt⟩, hbs _ _ (by omega)]
    · rw [if_pos hle, if_neg (fun h => hlt h.2), List.getD_eq_default _ _ (by omega)]
  · rw [if_neg hle, if_neg (fun h => hle h.1)]

theorem State.byteAfterStore_inside (s : State) {n k : Nat} (stored : Nat → Byte) (hk : k < n) :
    s.byteAfterStore n stored (s.i.toNat + k) = stored k := by
  rw [State.byteAfterStore, if_pos ⟨by omega, by omega⟩, Nat.add_sub_cancel_left]

theorem State.byteAfterStore_outside (s : State) {n a : Nat} (stored : Nat → Byte)
    (ha : a < s.i.toNat ∨ s.i.toNat + n ≤ a) : s.byteAfterStore n stored a = s.mem.byte a :=
  if_neg (by omega)

/-- The bytes that `Fx33` stores are the digits of R155. -/
theorem decimalDigits_getD (b : Byte) (k : Nat) (d : Byte) (hk : k < (decimalDigits b).length) :
    (decimalDigits b).getD k d = digit b k := by
  have hk3 : k < 3 := hk
  interval_cases k <;> rfl

theorem State.byte_storeDigits {s : State} (x : Nibble) (hwf : s.mem.wf = true) (hfits : s.i.toNat + 2 ≤ 0xFFF) :
    ∀ a, (s.mem.putList s.i.toNat (decimalDigits (s.readV x))).byte a = s.byteAfterStore 3 (digit (s.readV x)) a :=
  State.byte_putList_eq_byteAfterStore (bs := decimalDigits (s.readV x)) hwf (by simp [decimalDigits]; omega)
    (decimalDigits_getD _)

theorem State.readV_ofNat (s : State) {k : Nat} (hk : k < 16) : s.readV (BitVec.ofNat 4 k) = s.v[k] := by
  simp only [State.readV, BitVec.toNat_ofNat, Nat.mod_eq_of_lt (show k < 2 ^ 4 by omega)]

theorem State.byte_storeRegs {s : State} (x : Nibble) (hwf : s.mem.wf = true)
    (hfits : s.i.toNat + x.toNat ≤ 0xFFF) : ∀ a, (s.mem.putList s.i.toNat (s.regsUpTo x)).byte a =
      s.byteAfterStore (x.toNat + 1) (fun k => s.readV (BitVec.ofNat 4 k)) a := by
  have hlen := s.regsUpTo_length x
  rw [← hlen]
  refine State.byte_putList_eq_byteAfterStore hwf (by omega) fun k d hk => ?_
  have hx := x.isLt
  rw [s.regsUpTo_getD x k d (by omega) (by omega), s.readV_ofNat (by omega)]

/-! ### The next fetch -/

theorem State.fetch_of_pc {s : State} {p : Nat} (hpc : s.pc.toNat = p) (hp : p ≤ 0xFFE) :
    s.fetch = some [s.mem.byte p, s.mem.byte (p + 1)] := by
  rw [State.fetch, hpc, Memory.load?, if_pos ((rangeOk_iff p 2).2 (.inr (by omega)))]
  rfl

/-- After an advance from at most 0xFFC the next opcode is fetchable. -/
theorem State.Advances.fetch_eq {s t : State} (h : s.Advances t) (hpc : s.pc.toNat ≤ 0xFFC) :
    t.fetch = some [t.mem.byte (s.pc.toNat + 2), t.mem.byte (s.pc.toNat + 3)] :=
  State.fetch_of_pc (h.trans (Nat.mod_eq_of_lt (by omega))) (by omega)

/-- Settles O19: the fetch reads memory as the store has left it. -/
theorem nextFetchSeesTheStore : Obligations.NextFetchSeesTheStore := by
  refine fun s x hwf hpc => ⟨fun hfits => ⟨_, exec_ldMemVx_in_memory s x hfits, ?_⟩,
    fun hfits => ⟨_, exec_ldBVx_in_memory s x (by omega), ?_⟩⟩
  · refine (State.Advances.fetch_eq (State.advances_advance ?_) hpc).trans ?_
    · rfl
    simp only [State.advance_mem, State.advanceI_mem, State.writeMem_mem, State.byte_storeRegs x hwf hfits]
  · refine (State.Advances.fetch_eq (State.advances_advance ?_) hpc).trans ?_
    · rfl
    simp only [State.advance_mem, State.writeMem_mem, State.byte_storeDigits x hwf hfits]

/-! ### The stores and the load -/

theorem toNat_digit_hundreds (b : Byte) : (digit b 0).toNat = b.toNat / 100 := by
  have hb := b.isLt
  exact Nat.mod_eq_of_lt (by omega)

theorem toNat_digit_tens (b : Byte) : (digit b 1).toNat = b.toNat / 10 % 10 :=
  Nat.mod_eq_of_lt (by omega)

theorem toNat_digit_ones (b : Byte) : (digit b 2).toNat = b.toNat % 10 :=
  Nat.mod_eq_of_lt (by omega)

/-- Settles O56: three digits inside memory are stored, and a range that leaves memory raises the fault. -/
theorem storeDecimalDigitsAtIndex : Obligations.StoreDecimalDigitsAtIndex := by
  refine fun s x => ⟨fun hwf hfits => ?_, fun hout => exec_ldBVx_out_of_memory s x (by omega)⟩
  have hbyte := State.byte_storeDigits x hwf hfits
  refine ⟨_, exec_ldBVx_in_memory s x (by omega), ?_, ?_, ?_, fun a ha => ?_,
    State.advances_advance (s.writeMem_pc _), (s.onlyWrites_writeMem _).advance⟩
  · exact (congrArg _ ((hbyte _).trans (s.byteAfterStore_inside (k := 0) _ (by omega)))).trans (toNat_digit_hundreds _)
  · exact (congrArg _ ((hbyte _).trans (s.byteAfterStore_inside _ (by omega)))).trans (toNat_digit_tens _)
  · exact (congrArg _ ((hbyte _).trans (s.byteAfterStore_inside _ (by omega)))).trans (toNat_digit_ones _)
  · exact (hbyte a).trans (s.byteAfterStore_outside _ (by omega))

theorem State.toNat_i_advanceI (s : State) (x : Nibble) :
    (s.advanceI x).i.toNat = (s.i.toNat + x.toNat + 1) % 65536 := BitVec.toNat_ofNat _ _

/-- Settles O57: the registers up to `V[x]` are stored if they fit, and a range that leaves memory raises the fault. -/
theorem storeRegistersAtIndex : Obligations.StoreRegistersAtIndex := by
  refine fun s x => ⟨fun hwf hfits => ?_, exec_ldMemVx_out_of_memory s x⟩
  have hbyte := State.byte_storeRegs x hwf hfits
  refine ⟨_, exec_ldMemVx_in_memory s x hfits, fun r hr => ?_, fun a ha => ?_, State.toNat_i_advanceI _ x,
    State.advances_advance (s := s) rfl, s.onlyWrites_writeMem_advanceI _ x⟩
  · refine (hbyte _).trans ((s.byteAfterStore_inside _ (by omega)).trans ?_)
    rw [BitVec.ofNat_toNat, BitVec.setWidth_eq]
  · exact (hbyte a).trans (s.byteAfterStore_outside _ (by omega))

/-- Settles O58: the registers up to `V[x]` are loaded if the bytes are inside memory, else the fault is raised. -/
theorem loadRegistersFromIndex : Obligations.LoadRegistersFromIndex := by
  refine fun s x => ⟨fun hfits => ⟨_, exec_ldVxMem_in_memory s x hfits, fun r hr => ?_, State.toNat_i_advanceI _ x,
    State.advances_advance (s := s) rfl, s.onlyWrites_fill_advanceI (Memory.bytes_length _ _ _)⟩,
    exec_ldVxMem_out_of_memory s x⟩
  exact (s.readV_fill _ r).trans (s.mem.getD_bytes _ _ _ _ (by omega))

end Sys2Proof.Machine
end

section
/-! Proofs about `Dxyn` (45_display.md R141 to R143): the covered pixels and the collision, for one draw and for two. -/

namespace Sys2Proof.Machine

/-! ### One draw -/

theorem State.SpriteCovers.inside {s : State} {x y n : Nibble} {px py : Nat} (h : s.SpriteCovers x y n px py) :
    px < 64 ∧ py < 32 := by
  obtain ⟨r, c, -, -, -, rfl, rfl⟩ := h
  exact ⟨Nat.mod_lt _ (by decide), Nat.mod_lt _ (by decide)⟩

/-- The loops of R141 over the `n` bytes at `I` hit the pixels that the sprite covers. -/
theorem State.drawn_sprite (s : State) (x y n : Nibble) : Drawn (s.SpriteCovers x y n) (s.disp, false)
    (drawRows ((s.readV x).toNat % 64) ((s.readV y).toNat % 32) 0 (s.mem.bytes s.i.toNat n.toNat) (s.disp, false)) := by
  have hn := n.isLt
  refine (drawRows_drawn _ _ (s.mem.bytes s.i.toNat n.toNat) 0 _ (by simp; omega)).congr fun qx qy _ _ => ?_
  rw [Memory.bytes_length]
  refine exists_congr fun k => exists_congr fun c => and_congr_right fun hk => and_congr_right fun _ => ?_
  rw [RowHits, Memory.getD_bytes _ _ _ _ _ hk, Nat.zero_add, and_assoc]

/-- What `Dxyn` does inside memory: the display and the collision `c`, which is in `VF`. -/
theorem exec_drw_draws (s : State) (x y n : Nibble) (h : n.toNat = 0 ∨ s.i.toNat + n.toNat - 1 ≤ 0xFFF) :
    ∃ t c, exec (.drw x y n) s = .next t ∧ Drawn (s.SpriteCovers x y n) (s.disp, false) (t.disp, c) ∧
      t.readV vf = flagByte c ∧ s.Advances t ∧ s.OnlyWrites t (fun r => r = vf) [.display] :=
  ⟨_, _, exec_drw_in_memory s x y n (by omega), s.drawn_sprite x y n, State.readV_writeV_advance _ vf _,
    State.advances_advance (s := s) rfl, s.onlyWrites_drawSprite _ _ _⟩

/-- The collision is that a covered pixel was set. -/
theorem Drawn.collides_iff {s : State} {x y n : Nibble} {d d' : Display} {c : Bool}
    (h : Drawn (s.SpriteCovers x y n) (d, false) (d', c)) :
    c = true ↔ ∃ px py, s.SpriteCovers x y n px py ∧ d.pixel px py = true := by
  rw [h.collides]
  constructor
  · rintro (hf | ⟨px, py, -, -, hcov, hset⟩)
    · cases hf
    · exact ⟨px, py, hcov, hset⟩
  · rintro ⟨px, py, hcov, hset⟩
    obtain ⟨hx, hy⟩ := hcov.inside
    exact .inr ⟨px, py, hx, hy, hcov, hset⟩

theorem toNat_flag_of_iff {b : Byte} {c : Bool} {p : Prop} (hb : b = flagByte c) (hc : c = true ↔ p) :
    (p → b.toNat = 1) ∧ (¬p → b.toNat = 0) := by
  rw [hb, toNat_flagByte]
  exact ⟨fun hp => if_pos (hc.mpr hp), fun hp => if_neg (mt hc.mp hp)⟩

/-- Settles O49: inside memory the loops invert the covered pixels, and a range that leaves memory raises the fault. -/
theorem drawInvertsTheCoveredPixels : Obligations.DrawInvertsTheCoveredPixels := by
  refine fun s x y n => ⟨fun hin => ?_, fun hn hout => exec_drw_out_of_memory s x y n hn (by omega)⟩
  obtain ⟨t, c, hexec, hdrawn, hvf, hpc, hframe⟩ := exec_drw_draws s x y n hin
  obtain ⟨hset, hclear⟩ := toNat_flag_of_iff hvf hdrawn.collides_iff
  exact ⟨t, hexec, fun px py hx hy => ⟨hdrawn.inverted px py hx hy, hdrawn.kept px py hx hy⟩, hset, hclear, hpc, hframe⟩

/-! ### Two draws -/

/-- What a sprite covers depends on its position, `I` and the bytes there. -/
theorem State.spriteCovers_congr {s u : State} {x y : Nibble} (n : Nibble) (hi : u.i = s.i)
    (hmem : ∀ a, u.mem.byte a = s.mem.byte a) (hx : u.readV x = s.readV x) (hy : u.readV y = s.readV y) :
    u.SpriteCovers x y n = s.SpriteCovers x y n := by
  funext px py
  simp only [State.SpriteCovers, hi, hmem, hx, hy]

/-- A display is its pixels. -/
theorem Display.ext_pixel {d d' : Display} (h : ∀ x y, x < 64 → y < 32 → d.pixel x y = d'.pixel x y) : d = d' := by
  refine BitVec.eq_of_getLsbD_eq fun k hk => ?_
  have hpix := h (k % 64) (k / 64) (by omega) (by omega)
  rwa [Display.pixel, Display.pixel, Nat.div_add_mod] at hpix

/-- Two draws of the same pixels cancel. -/
theorem Drawn.twice {hit : Nat → Nat → Prop} {d d' d'' : Display} {c c' : Bool} (h₁ : Drawn hit (d, false) (d', c))
    (h₂ : Drawn hit (d', false) (d'', c')) : d'' = d := by
  refine Display.ext_pixel fun px py hx hy => ?_
  by_cases hhit : hit px py
  · exact (h₂.inverted px py hx hy hhit).trans
      ((congrArg (!·) (h₁.inverted px py hx hy hhit)).trans (Bool.not_not _))
  · exact (h₂.kept px py hx hy hhit).trans (h₁.kept px py hx hy hhit)

/-- Settles O50: the second draw finds every covered pixel inverted, so it inverts it back, and it collides where the
first found a pixel not set. -/
theorem drawingTwiceRestoresTheDisplay : Obligations.DrawingTwiceRestoresTheDisplay := by
  intro s t u x y n hin hfirst hdisp hi hmem hx hy
  obtain ⟨t', c, hexec, hdrawn, hvf, -⟩ := exec_drw_draws s x y n hin
  obtain rfl : t = t' := Host.Outcome.next.inj (hfirst.symm.trans hexec)
  obtain ⟨w, c', hsecond, hdrawn', hvf', -⟩ := exec_drw_draws u x y n (by rwa [hi])
  have hcovers := State.spriteCovers_congr n hi hmem hx hy
  have hcollides : c' = true ↔ ∃ px py, s.SpriteCovers x y n px py ∧ s.disp.pixel px py = false := by
    rw [hdrawn'.collides_iff, hcovers, hdisp]
    refine exists_congr fun px => exists_congr fun py => and_congr_right fun hcov => ?_
    obtain ⟨hpx, hpy⟩ := hcov.inside
    rw [hdrawn.inverted px py hpx hpy hcov, Bool.not_eq_true']
  rw [hcovers, hdisp] at hdrawn'
  obtain ⟨hset, hclear⟩ := toNat_flag_of_iff hvf' hcollides
  refine ⟨w, hsecond, hdrawn.twice hdrawn', hset, hclear, fun hnone ⟨px, py, hcov⟩ => hset ⟨px, py, hcov, ?_⟩⟩
  obtain ⟨hcollided, -⟩ := toNat_flag_of_iff hvf hdrawn.collides_iff
  by_contra hpix
  have hone := hcollided ⟨px, py, hcov, Bool.not_eq_false _ ▸ hpix⟩
  omega

end Sys2Proof.Machine
end

section
/-! Proofs about runs (10_state.md R45, 48_frame.md R168, 70_reset_and_hazards.md R200): every state has a next step,
load sets up the machine, and the invariant holds from load on. -/

namespace Sys2Proof.Machine

/-! ### Every state has a next step -/

theorem cycle_answers (s : State) : ∃ t, cycle s = .next t := by
  obtain ⟨-, h⟩ | ⟨-, h⟩ | ⟨-, h⟩ := cycle_cases s
  · exact ⟨_, h⟩
  · exact ⟨_, h⟩
  · rw [h]
    obtain ⟨-, h⟩ | ⟨-, -, ⟨_, -, h⟩ | ⟨i, -, h⟩⟩ := runningCycle_cases s
    · exact ⟨_, h⟩
    · exact ⟨_, h⟩
    · rw [h]
      exact exec_answers s i

/-- Settles O15: each of the three kinds of step answers a state. -/
theorem everyStateHasANextStep : Obligations.EveryStateHasANextStep := by
  intro s
  obtain ⟨-, h⟩ | ⟨k, -, h⟩ | ⟨-, h⟩ := step_cases s
  · exact ⟨_, h⟩
  · rw [h]
    exact cycle_answers _
  · exact ⟨_, h⟩

/-- What every step keeps holds after any run from a state in which it holds. -/
theorem run_keeps {P : State → Prop} (hstep : ∀ s t, P s → step s = .next t → P t) :
    ∀ (n : Nat) (s : State), P s → ∃ t : State, Host.Core.run Sys2Proof.core n s = .next t ∧ P t
  | 0, s, hs => ⟨s, rfl, hs⟩
  | n + 1, s, hs => by
    obtain ⟨t, ht⟩ := everyStateHasANextStep s
    obtain ⟨u, hrun, hu⟩ := run_keeps hstep n t (hstep s t hs ht)
    exact ⟨u, (run_succ Sys2Proof.core n s t ht).trans hrun, hu⟩

/-! ### All a cycle and a step can do -/

/-- A fault of the matrix is a cause. -/
theorem faultOf_ne_none {s : State} {i : Instr} {f : FaultCause} (h : faultOf s i = some f) : f ≠ .none := by
  rintro rfl
  cases i <;> simp [faultOf] at h

/-- All a cycle can do: nothing, the key scan, a fault, or an instruction that completes (R100, R105). -/
theorem cycle_next_cases {s t : State} (h : cycle s = .next t) :
    ((s.mode = .faulted ∨ s.mode = .paused) ∧ t = s) ∨ (s.mode = .awaitingKey ∧ t = s.keyWaitScan) ∨
      (s.mode = .running ∧ ∃ f, f ≠ .none ∧ t = s.raise f) ∨
      (s.mode = .running ∧ s.pc.toNat ≤ 0xFFE ∧ ∃ i, decode (s.mem.bytes s.pc.toNat 2) = .ok i ∧ exec i s = .next t ∧
        s.Completes i t) := by
  obtain ⟨hm, hc⟩ | ⟨hm, hc⟩ | ⟨hm, hc⟩ := cycle_cases s
  · exact .inl ⟨hm, Host.Outcome.next.inj (h.symm.trans hc)⟩
  · exact .inr (.inl ⟨hm, Host.Outcome.next.inj (h.symm.trans hc)⟩)
  · have hrun : runningCycle s = .next t := hc.symm.trans h
    refine .inr (.inr ?_)
    obtain ⟨-, hr⟩ | ⟨hpc, -, ⟨_, -, hr⟩ | ⟨i, hi, hr⟩⟩ := runningCycle_cases s
    · exact .inl ⟨hm, _, by decide, Host.Outcome.next.inj (hrun.symm.trans hr)⟩
    · exact .inl ⟨hm, _, by decide, Host.Outcome.next.inj (hrun.symm.trans hr)⟩
    · have hexec : exec i s = .next t := hr.symm.trans hrun
      obtain ⟨f, hf, ht⟩ | ⟨-, hcompletes⟩ := exec_next_cases hexec
      · exact .inl ⟨hm, f, faultOf_ne_none hf, ht⟩
      · exact .inr ⟨hm, hpc, i, hi, hexec, hcompletes⟩

/-- What no cycle changes: the keys, the output ports, where in the frame the machine stands. -/
theorem cycle_keeps {s t : State} (h : cycle s = .next t) : t.keys = s.keys ∧ t.out = s.out ∧ t.phase = s.phase := by
  obtain ⟨-, rfl⟩ | ⟨-, rfl⟩ | ⟨-, f, -, rfl⟩ | ⟨-, -, i, -, -, hc⟩ := cycle_next_cases h
  · exact ⟨rfl, rfl, rfl⟩
  · obtain ⟨k, -, -, -, hscan⟩ | ⟨-, hscan⟩ := s.keyWaitScan_cases <;> rw [hscan] <;> exact ⟨rfl, rfl, rfl⟩
  · exact ⟨rfl, rfl, rfl⟩
  · exact ⟨hc.kept (p := .keys) (by simp), hc.kept (p := .outputs) (by simp), hc.kept (p := .phase) (by simp)⟩

theorem Mode.runsCycles_eq_false_iff (m : Mode) : m.runsCycles = false ↔ m = .faulted ∨ m = .paused := by
  cases m <;> simp [Mode.runsCycles]

theorem State.atFrameEnd_iff (s : State) :
    s.AtFrameEnd ↔ s.phase = .cycles 0 ∨ ∃ k, s.phase = .cycles (k + 1) ∧ s.mode.runsCycles = false := by
  simp only [State.AtFrameEnd, Mode.runsCycles_eq_false_iff]

/-- All a step can do, with its next state known: begin a frame, run a cycle, or end the frame. -/
theorem step_next_cases {s t : State} (h : step s = .next t) :
    (s.phase = .frameStart ∧ t = s.takeInput.beginFrame s.nextInput) ∨
      (∃ k, s.CycleDue k ∧ cycle { s with phase := .cycles k } = .next t) ∨ (s.AtFrameEnd ∧ t = s.endFrame) := by
  obtain ⟨hphase, hs⟩ | ⟨k, hdue, hs⟩ | ⟨hend, hs⟩ := step_cases s
  · exact .inl ⟨hphase, Host.Outcome.next.inj (h.symm.trans hs)⟩
  · exact .inr (.inl ⟨k, hdue, hs.symm.trans h⟩)
  · exact .inr (.inr ⟨s.atFrameEnd_iff.mpr hend, Host.Outcome.next.inj (h.symm.trans hs)⟩)

/-! ### Load -/

/-- The memory of a legal load, byte by byte (R200). -/
theorem Params.byte_memory {p : Params} (hp : p.Legal) (a : Nat) : p.memory.byte a =
    if 0x200 ≤ a then p.rom.getD (a - 0x200) (p.font.toList.getD a (Memory.unlisted a))
    else p.font.toList.getD a (Memory.unlisted a) := by
  have hrom : p.rom.length ≤ 3584 := hp
  have hfont : ∀ b, (Memory.putList [] 0 p.font.toList).byte b = p.font.toList.getD b (Memory.unlisted b) := fun b =>
    (Memory.byte_putList p.font.toList b rfl (by simp)).trans (if_pos (Nat.zero_le b))
  rw [Params.memory, Memory.byte_putList p.rom a (Memory.putList_wf p.font.toList rfl (by simp)) (by omega), hfont]

/-- Above the font an unlisted address reads as 0. -/
theorem Memory.unlisted_of_ge {a : Nat} (ha : 80 ≤ a) : Memory.unlisted a = 0 :=
  List.getD_eq_default _ _ ha

/-- Above the font the memory of a load holds no font byte. -/
theorem Params.font_getD_of_ge (p : Params) {a : Nat} (ha : 80 ≤ a) :
    p.font.toList.getD a (Memory.unlisted a) = 0 := by
  rw [List.getD_eq_default _ _ (by simpa using ha), Memory.unlisted_of_ge ha]

/-- Settles O25: memory byte by byte, and the registers as in the reset state. -/
theorem loadInstallsFontAndImage : Obligations.LoadInstallsFontAndImage := by
  refine ⟨State.load_empty.symm, fun p hp => ⟨fun a ha => ?_, fun j hj => ?_, fun a ha hout => ?_, fun r => ?_, rfl,
    rfl, fun k hk => ?_, rfl, rfl, rfl, fun x y => Display.pixel_zero x y, rfl, rfl, rfl, rfl⟩⟩
  · refine (Params.byte_memory hp a).trans ?_
    rw [if_neg (by omega), List.getD_eq_getElem _ _ (by simpa using ha), Vector.getElem_toList]
  · refine (Params.byte_memory hp _).trans ?_
    rw [if_pos (by omega), Nat.add_sub_cancel_left, Params.font_getD_of_ge p (by omega)]
  · refine (Params.byte_memory hp a).trans ?_
    rw [p.font_getD_of_ge ha]
    split
    · exact List.getD_eq_default _ _ (by omega)
    · rfl
  · exact Vector.getElem_replicate _
  · exact Vector.getElem_replicate _

/-- A legal load meets the invariant. -/
theorem State.inv_load {p : Params} (hp : p.Legal) : (State.load p).Inv where
  inBounds := ⟨(by decide : (0x200#16).toNat ≤ 0x10FE), (by decide : Mode.running = .faulted ↔ FaultCause.none ≠ .none),
    fun k hk => by simp [State.load, State.reset]⟩
  memory := p.memory_wf hp
  waitPc h := nomatch h
  params := hp
  phase k h := nomatch h

/-- Settles O20: the reset state is the load of an empty image. -/
theorem loadedStateMeetsTheInvariant : Obligations.LoadedStateMeetsTheInvariant :=
  ⟨State.load_empty ▸ State.inv_load (Nat.zero_le _), fun _ => State.inv_load⟩

/-! ### The invariant under the operations of a step -/

/-- The invariant reads these fields only. -/
theorem State.Inv.congr {s t : State} (h : s.Inv) (hpc : t.pc = s.pc) (hmode : t.mode = s.mode)
    (hcause : t.faultCause = s.faultCause) (hstack : t.stack = s.stack) (hmem : t.mem = s.mem)
    (hparams : t.params = s.params) (hphase : ∀ k, t.phase = .cycles k → k ≤ t.params.cyclesPerFrame) : t.Inv where
  inBounds := by
    obtain ⟨hpcLe, hfaulted, hentries⟩ := h.inBounds
    exact ⟨hpc ▸ hpcLe, by rw [hmode, hcause]; exact hfaulted, hstack ▸ hentries⟩
  memory := hmem ▸ h.memory
  waitPc hw := hpc ▸ h.waitPc (hmode ▸ hw)
  params := hparams ▸ h.params
  phase := hphase

theorem State.Inv.raise {s : State} (h : s.Inv) {f : FaultCause} (hf : f ≠ .none) : (s.raise f).Inv where
  inBounds := ⟨h.inBounds.pc, iff_of_true rfl hf, h.inBounds.stack⟩
  memory := h.memory
  waitPc hw := nomatch hw
  params := h.params
  phase := h.phase

theorem State.Inv.faultCause_eq_none {s : State} (h : s.Inv) (hm : s.mode ≠ .faulted) : s.faultCause = .none :=
  Classical.not_not.mp (mt h.inBounds.faulted.mpr hm)

theorem State.Inv.togglePause {s : State} (h : s.Inv) : s.togglePause.Inv where
  inBounds := by
    refine ⟨by simpa using h.inBounds.pc, ?_, by simpa using h.inBounds.stack⟩
    have hfaulted := h.inBounds.faulted
    unfold State.togglePause
    split <;> simp_all
  memory := by simpa using h.memory
  waitPc hw := by
    unfold State.togglePause at hw
    split at hw <;> simp_all
  params := by simpa using h.params
  phase := by simpa using h.phase

/-- An execution from a fetchable `PC` leaves it within the bound of R45. -/
theorem pcAfter_le {s : State} (h : s.InBounds) (hpc : s.pc.toNat ≤ 0xFFE) (i : Instr) : pcAfter s i ≤ 0x10FE := by
  cases i with
  | jp nnn | call nnn =>
    have hnnn := nnn.isLt
    simp only [pcAfter]
    omega
  | jpV0 nnn =>
    have hnnn := nnn.isLt
    have hv := (s.readV 0).isLt
    simp only [pcAfter]
    omega
  | ret =>
    have hsp := s.sp.isLt
    have hentry : (s.stack.toList.getD (s.sp.val - 1) 0).toNat ≤ 0xFFE := by
      rw [List.getD_eq_getElem _ _ (by simp; omega), Vector.getElem_toList]
      exact h.stack _ _
    simp only [pcAfter]
    omega
  | seByte | sneByte | seReg | sneReg | skp | sknp =>
    simp only [pcAfter]
    split <;> omega
  | _ =>
    simp only [pcAfter]
    omega

/-- A call pushes its own address, and nothing else changes an entry. -/
theorem exec_keeps_stack_bound {s t : State} {i : Instr} (h : exec i s = .next t) (hpc : s.pc.toNat ≤ 0xFFE)
    (hs : ∀ (k : Nat) (hk : k < 16), (s.stack[k]).toNat ≤ 0xFFE) (k : Nat) (hk : k < 16) :
    (t.stack[k]).toNat ≤ 0xFFE := by
  by_cases hcall : ∃ nnn, i = .call nnn
  · obtain ⟨nnn, rfl⟩ := hcall
    obtain hfull | hroom : s.sp.val = 16 ∨ s.sp.val < 16 := by omega
    · obtain rfl := Host.Outcome.next.inj (h.symm.trans (exec_call_of_full s nnn hfull))
      exact hs k hk
    · obtain ⟨t', ht', -, -, hstack, -⟩ := (callPushesItsOwnAddress s nnn).1 hroom
      obtain rfl := Host.Outcome.next.inj (h.symm.trans ht')
      rw [hstack k hk]
      split
      · exact hpc
      · exact hs k hk
  · obtain ⟨-, -, hstack, -⟩ := onlyTheNamedInstructionsWriteEachPieceOfState i s t h
    rw [hstack (not_exists.mp hcall)]
    exact hs k hk

/-- The two stores check their range, and nothing else changes memory. -/
theorem exec_keeps_wf {s t : State} {i : Instr} (h : exec i s = .next t) (hs : s.mem.wf = true) : t.mem.wf = true := by
  by_cases hstore : ∃ x, i = .ldBVx x ∨ i = .ldMemVx x
  · obtain ⟨x, rfl | rfl⟩ := hstore
    · obtain hfits | hout : s.i.toNat + 3 ≤ 0x1000 ∨ 0x1000 < s.i.toNat + 3 := by omega
      · obtain rfl := Host.Outcome.next.inj (h.symm.trans (exec_ldBVx_in_memory s x hfits))
        exact Memory.putList_wf _ hs hfits
      · obtain rfl := Host.Outcome.next.inj (h.symm.trans (exec_ldBVx_out_of_memory s x hout))
        exact hs
    · obtain hfits | hout : s.i.toNat + x.toNat ≤ 0xFFF ∨ 0xFFF < s.i.toNat + x.toNat := by omega
      · obtain rfl := Host.Outcome.next.inj (h.symm.trans (exec_ldMemVx_in_memory s x hfits))
        exact Memory.putList_wf _ hs (by simp; omega)
      · obtain rfl := Host.Outcome.next.inj (h.symm.trans (exec_ldMemVx_out_of_memory s x hout))
        exact hs
  · obtain ⟨-, hmem, -⟩ := onlyTheNamedInstructionsWriteEachPieceOfState i s t h
    rw [hmem fun x => not_or.mp (not_exists.mp hstore x)]
    exact hs

/-- An instruction that completes, from a fetchable `PC`. -/
theorem State.Inv.completes {s t : State} {i : Instr} (h : s.Inv) (hm : s.mode = .running) (hpc : s.pc.toNat ≤ 0xFFE)
    (hexec : exec i s = .next t) (hc : s.Completes i t) : t.Inv := by
  have hphase : t.phase = s.phase := hc.kept (p := .phase) (by simp)
  have hparams : t.params = s.params := hc.kept (p := .parameters) (by simp)
  have hnone : t.faultCause = .none := hc.faultCause_eq.trans (h.faultCause_eq_none (by rw [hm]; decide))
  exact {
    inBounds := ⟨hc.pc ▸ pcAfter_le h.inBounds hpc i,
      iff_of_false (hc.mode_ne_faulted hexec hm) (Classical.not_not.mpr hnone),
      exec_keeps_stack_bound hexec hpc h.inBounds.stack⟩
    memory := exec_keeps_wf hexec h.memory
    waitPc := fun hwait => by
      obtain hmode | ⟨x, -, rfl⟩ := hc.mode_cases hexec
      · rw [hmode, hm] at hwait
        cases hwait
      · exact hpc
    params := hparams ▸ h.params
    phase := by rw [hphase, hparams]; exact h.phase }

/-- A completed wait is an advance from the `PC` of the wait, Running. -/
theorem State.Inv.keyWaitScan {s : State} (h : s.Inv) (hm : s.mode = .awaitingKey) : s.keyWaitScan.Inv := by
  obtain ⟨k, -, -, -, hscan⟩ | ⟨-, hscan⟩ := s.keyWaitScan_cases
  · have hpc : (s.pc + 2#16).toNat = (s.pc.toNat + 2) % 65536 := BitVec.toNat_add _ _
    have hwaitPc := h.waitPc hm
    rw [hscan]
    exact {
      inBounds := ⟨by simp only [State.resume_pc, State.advance_pc, State.writeV_pc]; omega,
        iff_of_false (by simp) (Classical.not_not.mpr (h.faultCause_eq_none (by rw [hm]; decide))), h.inBounds.stack⟩
      memory := h.memory
      waitPc := fun hw => nomatch hw
      params := h.params
      phase := h.phase }
  · rw [hscan]
    exact h

theorem State.Inv.cycle {s t : State} (h : s.Inv) (hcycle : cycle s = .next t) : t.Inv := by
  obtain ⟨-, rfl⟩ | ⟨hm, rfl⟩ | ⟨-, f, hf, rfl⟩ | ⟨hm, hpc, i, -, hexec, hc⟩ := cycle_next_cases hcycle
  · exact h
  · exact h.keyWaitScan hm
  · exact h.raise hf
  · exact h.completes hm hpc hexec hc

theorem State.params_control (s : State) (inp : FrameInput) : (s.control inp).params = s.params := by
  obtain ⟨-, hc⟩ | ⟨-, -, hc⟩ | ⟨-, -, hc⟩ := s.control_cases inp <;> rw [hc]
  · rfl
  · exact s.togglePause_params

theorem State.Inv.control {s : State} (h : s.Inv) (inp : FrameInput) : (s.control inp).Inv := by
  obtain ⟨-, hc⟩ | ⟨-, -, hc⟩ | ⟨-, -, hc⟩ := s.control_cases inp <;> rw [hc]
  · exact (State.inv_load h.params).congr rfl rfl rfl rfl rfl rfl h.phase
  · exact h.togglePause
  · exact h

theorem State.Inv.beginFrame {s : State} (h : s.Inv) (inp : FrameInput) : (s.beginFrame inp).Inv := by
  refine (h.control inp).congr rfl rfl rfl rfl rfl rfl fun k hk => ?_
  cases hk
  exact (congrArg _ (s.params_control inp)).ge

theorem State.Inv.endFrame {s : State} (h : s.Inv) : s.endFrame.Inv :=
  h.congr rfl rfl rfl rfl rfl rfl fun _ hk => nomatch hk

/-- Settles O21: each of the three kinds of step keeps the invariant. -/
theorem everyStepKeepsTheInvariant : Obligations.EveryStepKeepsTheInvariant := by
  intro s t h hstep
  obtain ⟨-, rfl⟩ | ⟨k, ⟨hphase, -⟩, hcycle⟩ | ⟨-, rfl⟩ := step_next_cases hstep
  · have htake : s.takeInput.Inv := h.congr rfl rfl rfl rfl rfl rfl h.phase
    exact htake.beginFrame s.nextInput
  · have hleft : k + 1 ≤ s.params.cyclesPerFrame := h.phase _ hphase
    have hcounted : State.Inv { s with phase := .cycles k } := by
      refine h.congr rfl rfl rfl rfl rfl rfl fun j hj => ?_
      cases hj
      exact Nat.le_of_succ_le hleft
    exact hcounted.cycle hcycle
  · exact h.endFrame

/-- Settles O22: a legal load meets the invariant, placed inputs are no part of it, and every step keeps it. -/
theorem reachableStatesStayInBounds : Obligations.ReachableStatesStayInBounds := by
  intro p inputs n hp
  have hload : State.Inv { State.load p with inputs := inputs } :=
    (State.inv_load hp).congr rfl rfl rfl rfl rfl rfl fun _ hk => nomatch hk
  obtain ⟨t, hrun, ht⟩ := run_keeps everyStepKeepsTheInvariant n _ hload
  exact ⟨t, hrun, ht.inBounds, Nat.le_of_lt_succ t.sp.isLt, ht.memory⟩

end Sys2Proof.Machine
end

section
/-! Proofs about one cycle (40_cycle.md R100 to R103, 46_keys.md R148): what is fetched and executed, the mode gate and
the key scan. -/

namespace Sys2Proof.Machine

/-! ### Fetch, decode, execute -/

theorem step_of_cycleDue {s : State} {k : Nat} (h : s.CycleDue k) : step s = cycle { s with phase := .cycles k } := by
  obtain ⟨hphase, hruns⟩ := h
  simp only [step, stepPhase, hphase, hruns, if_true]

theorem cycle_of_decode {s : State} {bytes : List Byte} {i : Instr} (hm : s.mode = .running)
    (hfetch : s.fetch = some bytes) (hdecode : decode bytes = .ok i) : cycle s = exec i s := by
  rw [cycle_of_running hm, runningCycle, hfetch]
  simp only [hdecode]

/-- Settles O8: the call that the step uses is counted before the cycle, which fetches the same bytes. -/
theorem stepRunsTheDecodedInstruction : Obligations.StepRunsTheDecodedInstruction := by
  intro s k bytes i hphase hm hfetch hdecode
  have hdue : s.CycleDue k := ⟨hphase, by rw [hm]; rfl⟩
  exact (step_of_cycleDue hdue).trans (cycle_of_decode hm hfetch hdecode)

/-- Settles O10: the two bytes at `PC` are fetched, and they are the opcode. -/
theorem fetchTakesTheHighByteFromTheLowerAddress : Obligations.FetchTakesTheHighByteFromTheLowerAddress := by
  intro s op i hm hpc hop hdecode
  exact cycle_of_decode hm (State.fetch_of_pc rfl hpc) ((decode_bytes_of_opcodeAtPc hop).trans hdecode)

/-! ### A placed word -/

theorem State.readyToFetch_pc_le (s : State) : s.readyToFetch.pc.toNat ≤ 0xFFE := by
  unfold State.readyToFetch
  dsimp only
  split
  · assumption
  · decide

theorem State.readyToFetch_phase (s : State) : ∃ k, s.readyToFetch.phase = .cycles (k + 1) := by
  unfold State.readyToFetch
  dsimp only
  split <;> exact ⟨_, rfl⟩

/-- Bytes stored inside memory are read back. -/
theorem Memory.bytes_putList {m : Memory} {a : Nat} {bs : List Byte} (hwf : m.wf = true)
    (hfits : a + bs.length ≤ 0x1000) : (m.putList a bs).bytes a bs.length = bs := by
  refine List.ext_getElem (Memory.bytes_length _ _ _) fun k hk hk' => ?_
  rw [← List.getD_eq_getElem _ 0 hk, Memory.getD_bytes _ _ _ _ _ hk', Memory.byte_putList bs _ hwf hfits,
    if_pos (Nat.le_add_right a k), Nat.add_sub_cancel_left, List.getD_eq_getElem _ _ hk']

/-- A placed opcode is what the placed state fetches (R62, log entry 5). -/
theorem State.fetch_placeOpcode {s : State} (hwf : s.mem.wf = true) (op : Opcode) :
    (s.placeOpcode op).fetch = some (opcodeBytes op) := by
  have hpc := s.readyToFetch_pc_le
  have hfits : s.readyToFetch.pc.toNat + (opcodeBytes op).length ≤ 0x1000 := by
    simp only [opcodeBytes, List.length]
    omega
  exact (State.fetch_of_pc (s := s.placeOpcode op) rfl hpc).trans
    (congrArg some (Memory.bytes_putList (m := s.mem) hwf hfits))

theorem decode_of_decodeTableWord {w : Nat} {i : Instr} (h : decodeTableWord 16 w = some i) :
    decode (opcodeBytes (tableOpcode 16 w)) = .ok i := by
  unfold decodeTableWord at h
  split at h
  · next hd => rw [hd, Option.some.inj h]
  · cases h
  · cases h

/-- Settles O9: the placed state has a cycle due, and it fetches the placed word. -/
theorem placedWordIsRunByTheNextStep : Obligations.PlacedWordIsRunByTheNextStep := by
  intro s w i hwf hword
  obtain ⟨k, hk⟩ := s.readyToFetch_phase
  exact ⟨k, hk, stepRunsTheDecodedInstruction (s.withFetchWord 16 w) k _ i hk rfl (State.fetch_placeOpcode hwf _)
    (decode_of_decodeTableWord hword)⟩

/-! ### The mode gate and the key scan -/

theorem cycle_of_idle {s : State} (hm : s.mode = .faulted ∨ s.mode = .paused) : cycle s = .next s := by
  obtain hm | hm := hm <;> simp only [cycle, hm]

theorem cycle_of_awaitingKey {s : State} (hm : s.mode = .awaitingKey) : cycle s = .next s.keyWaitScan := by
  simp only [cycle, hm]

/-- The scan reads the keys and not memory. -/
theorem State.keyWaitScan_writeMem (s : State) (m : Memory) :
    (s.writeMem m).keyWaitScan = s.keyWaitScan.writeMem m := by
  have hkey : (s.writeMem m).lowestKey = s.lowestKey := rfl
  unfold State.keyWaitScan
  rw [hkey]
  cases s.lowestKey <;> rfl

theorem State.keyWaitScan_mem (s : State) : s.keyWaitScan.mem = s.mem := by
  obtain ⟨k, -, -, -, hscan⟩ | ⟨-, hscan⟩ := s.keyWaitScan_cases <;> rw [hscan]
  rfl

/-- Settles O13: idle modes leave the state, and the scan neither reads nor writes memory. -/
theorem cycleIsGatedByTheMode : Obligations.CycleIsGatedByTheMode := by
  refine ⟨fun s => cycle_of_idle, fun s m hm => ⟨s.keyWaitScan, cycle_of_awaitingKey hm, ?_, s.keyWaitScan_mem⟩⟩
  rw [← State.keyWaitScan_writeMem]
  exact cycle_of_awaitingKey hm

/-- The scan takes the lowest pressed key. -/
theorem State.keyWaitScan_of_lowest {s : State} {k : Nat} (hk : k < 16) (hdown : s.keys.getLsbD k = true)
    (hbelow : ∀ j, j < k → s.keys.getLsbD j = false) :
    s.keyWaitScan = ((s.writeV s.waitReg (BitVec.ofNat 8 k)).advance).resume := by
  obtain ⟨k', -, hdown', hbelow', hscan⟩ | ⟨hnone, -⟩ := s.keyWaitScan_cases
  · obtain hlt | rfl | hgt := Nat.lt_trichotomy k k'
    · exact absurd (hbelow' k hlt) (by simp [State.keyDown, hdown])
    · exact hscan
    · exact absurd (hbelow k' hgt) (by simpa [State.keyDown] using hdown')
  · exact absurd (hnone k hk) (by simp [State.keyDown, hdown])

theorem State.keyWaitScan_of_noKey {s : State} (hnone : ∀ k, k < 16 → s.keys.getLsbD k = false) :
    s.keyWaitScan = s := by
  obtain ⟨k, hk, hdown, -⟩ | ⟨-, hscan⟩ := s.keyWaitScan_cases
  · exact absurd (hnone k hk) (by simpa [State.keyDown] using hdown)
  · exact hscan

theorem State.onlyWrites_resume (s : State) : s.OnlyWrites s.resume noRegs [.mode] :=
  State.onlyWrites_of_same_regs rfl fun p hp => by cases p <;> simp_all [Part.Same]

/-- Settles O14: the completed wait writes the key's number, advances and resumes; without a key the scan is the
identity. -/
theorem keyWaitTakesTheLowestPressedKey : Obligations.KeyWaitTakesTheLowestPressedKey := by
  refine fun s hm => ⟨fun k hk hdown hbelow => ?_, fun hnone => ?_⟩
  · have hcycle := (cycle_of_awaitingKey hm).trans (congrArg _ (State.keyWaitScan_of_lowest hk hdown hbelow))
    refine ⟨_, hcycle, ?_, rfl, State.advances_advance (s.writeV_pc _ _),
      ((s.onlyWrites_writeV _ _).advance.trans (State.onlyWrites_resume _)).mono (by simp [noRegs])
        (List.Subset.refl _)⟩
    refine (congrArg _ (s.readV_writeV_advance s.waitReg _)).trans ?_
    rw [BitVec.toNat_ofNat, Nat.mod_eq_of_lt (by omega)]
  · rw [cycle_of_awaitingKey hm, State.keyWaitScan_of_noKey hnone]

/-! ### Finished programs -/

/-- A self-jump decodes to the jump to its own address. -/
theorem cycle_of_atSelfJump {s : State} (h : s.AtSelfJump) : cycle s = .next s := by
  obtain ⟨hm, nnn, hpc, hfetch⟩ := h
  have hdecode : decode (encode (.jp nnn)) = .ok (.jp nnn) :=
    (decodeOfEncodeIsTheInstruction (.jp nnn) []).1
  rw [cycle_of_decode hm hfetch hdecode, exec_jp, State.writePc_eq_self hpc]

theorem cycle_of_endlessKeyWait {inputs : Nat → FrameInput} {s : State} (h : s.EndlessKeyWait inputs) :
    cycle s = .next s := by
  obtain ⟨hm, hkeys, -⟩ := h
  rw [cycle_of_awaitingKey hm, State.keyWaitScan_of_noKey fun k _ => by simp [hkeys]]

/-- Settles O24: each of the three ends of R205 is a fixed point of its own kind of cycle. -/
theorem finishedProgramsAreFixedPointsOfTheCycle : Obligations.FinishedProgramsAreFixedPointsOfTheCycle := by
  rintro inputs s (hjump | hwait | hfaulted)
  · exact cycle_of_atSelfJump hjump
  · exact cycle_of_endlessKeyWait hwait
  · exact cycle_of_idle (.inl hfaulted)

end Sys2Proof.Machine
end

section
/-! Proofs about the frame (48_frame.md R160 to R168): its start, its cycles, its end, the frame as one event, and the
modes (60_exceptions.md R178, R180). -/

namespace Sys2Proof.Machine

/-! ### The steps of a frame -/

theorem step_of_frameStart {s : State} (h : s.phase = .frameStart) :
    step s = .next (s.takeInput.beginFrame s.nextInput) := by
  simp only [step, stepPhase, h]

theorem step_of_atFrameEnd {s : State} (h : s.AtFrameEnd) : step s = .next s.endFrame := by
  obtain hphase | ⟨k, hphase, hm⟩ := s.atFrameEnd_iff.mp h
  · simp only [step, stepPhase, hphase]
  · simp only [step, stepPhase, hphase, hm, Bool.false_eq_true, if_false]

/-! ### The start of a frame -/

theorem State.control_of_reset (s : State) {inp : FrameInput} (h : inp.resetReq = true) : s.control inp = s.reload :=
  if_pos h

theorem State.control_of_noReset (s : State) {inp : FrameInput} (h : inp.resetReq = false) :
    s.control inp = if inp.pauseToggle then s.togglePause else s := by
  simp only [State.control, h, Bool.false_eq_true, if_false]

theorem State.beginFrame_mode (s : State) (inp : FrameInput) : (s.beginFrame inp).mode = (s.control inp).mode := rfl

/-- Settles O26: the controlled state is the reload, and only keys and phase are written after it. -/
theorem resetRequestReloadsTheMachine : Obligations.ResetRequestReloadsTheMachine := by
  intro s hphase hreset
  refine ⟨_, step_of_frameStart hphase, ?_⟩
  unfold State.beginFrame
  rw [State.control_of_reset _ hreset]
  exact ⟨rfl, rfl, rfl, rfl, rfl, rfl, rfl, rfl, rfl, rfl, rfl, rfl, rfl, rfl, rfl⟩

theorem State.togglePause_mode_of_live {s : State} (h : s.mode = .running ∨ s.mode = .awaitingKey) :
    s.togglePause.mode = .paused := by
  obtain h | h := h <;> simp [State.togglePause, h]

theorem State.togglePause_mode_of_paused {s : State} (h : s.mode = .paused) : s.togglePause.mode = .running := by
  simp [State.togglePause, h]

theorem State.togglePause_mode_of_faulted {s : State} (h : s.mode = .faulted) : s.togglePause.mode = .faulted := by
  simp [State.togglePause, h]

theorem State.onlyWrites_togglePause (s : State) : s.OnlyWrites s.togglePause noRegs [.mode] :=
  State.onlyWrites_of_same_regs s.togglePause_v fun p hp => by cases p <;> simp_all [Part.Same]

theorem State.onlyWrites_takeInput (s : State) : s.OnlyWrites s.takeInput noRegs [.frames] :=
  State.onlyWrites_of_same_regs rfl fun p hp => by cases p <;> simp_all [Part.Same]

theorem State.onlyWrites_keys_phase (s : State) (keys : BitVec 16) (phase : Phase) :
    s.OnlyWrites { s with keys := keys, phase := phase } noRegs [.keys, .phase] :=
  State.onlyWrites_of_same_regs rfl fun p hp => by cases p <;> simp_all [Part.Same]

theorem State.OnlyWrites.refl (s : State) : s.OnlyWrites s noRegs [] :=
  State.onlyWrites_of_same_regs rfl fun p _ => by cases p <;> simp [Part.Same]

theorem State.onlyWrites_control (s : State) {inp : FrameInput} (h : inp.resetReq = false) :
    s.OnlyWrites (s.control inp) noRegs [.mode] := by
  rw [s.control_of_noReset h]
  split
  · exact s.onlyWrites_togglePause
  · exact (State.OnlyWrites.refl s).mono (fun _ h => h) (List.nil_subset _)

theorem State.control_pc (s : State) {inp : FrameInput} (h : inp.resetReq = false) : (s.control inp).pc = s.pc := by
  rw [s.control_of_noReset h]
  split
  · exact s.togglePause_pc
  · rfl

/-- Settles O27: without a reset the control is the toggle or nothing, and after it only keys and phase are written. -/
theorem pauseToggleFlipsTheModeOnly : Obligations.PauseToggleFlipsTheModeOnly := by
  intro s hphase hreset
  have hwrites := (s.onlyWrites_takeInput.trans (s.takeInput.onlyWrites_control hreset)).trans
    (State.onlyWrites_keys_phase _ s.nextInput.keysIn (.cycles s.params.cyclesPerFrame))
  have hmode : (s.takeInput.beginFrame s.nextInput).mode =
      (if s.nextInput.pauseToggle then s.takeInput.togglePause else s.takeInput).mode := by
    rw [State.beginFrame_mode, s.takeInput.control_of_noReset hreset]
  refine ⟨_, step_of_frameStart hphase, rfl, rfl, s.takeInput.control_pc hreset,
    hwrites.mono (by simp [noRegs]) (by simp), fun hno => ?_, fun hyes hm => ?_, fun hyes hm => ?_, fun hyes hm => ?_⟩
  · rw [hmode, hno]
    rfl
  · rw [hmode, hyes]
    exact State.togglePause_mode_of_live hm
  · rw [hmode, hyes]
    exact State.togglePause_mode_of_paused hm
  · rw [hmode, hyes]
    exact State.togglePause_mode_of_faulted hm

/-- Settles O28: step 1 overwrites the keys last, and neither a cycle nor the end of a frame writes them. -/
theorem keysChangeOnlyAtTheStartOfAFrame : Obligations.KeysChangeOnlyAtTheStartOfAFrame := by
  intro s t h
  obtain ⟨hphase, rfl⟩ | ⟨k, hdue, hcycle⟩ | ⟨hend, rfl⟩ := step_next_cases h
  · exact ⟨fun _ => rfl, fun hne => absurd hphase hne⟩
  · obtain ⟨hphase, -⟩ := hdue
    obtain ⟨hkeys, -⟩ := cycle_keeps hcycle
    exact ⟨fun hstart => (nomatch hphase.symm.trans hstart), fun _ => hkeys⟩
  · refine ⟨fun hstart => ?_, fun _ => rfl⟩
    obtain hphase | ⟨k, hphase, -⟩ := hend <;> exact nomatch hphase.symm.trans hstart

/-! ### The end of a frame -/

theorem State.onlyWrites_endFrame (s : State) :
    s.OnlyWrites s.endFrame noRegs [.delayTimer, .soundTimer, .outputs, .phase] :=
  State.onlyWrites_of_same_regs rfl fun p hp => by cases p <;> simp_all [Part.Same]

/-- Settles O29: the end of a frame decays both timers, whatever the mode. -/
theorem timersDecayOnceAtTheEndOfAFrame : Obligations.TimersDecayOnceAtTheEndOfAFrame :=
  fun s hend => ⟨_, step_of_atFrameEnd hend, decay_toNat s.dt, decay_toNat s.st, rfl, rfl, s.onlyWrites_endFrame⟩

theorem State.control_out (s : State) (inp : FrameInput) : (s.control inp).out = s.out := by
  obtain ⟨-, hc⟩ | ⟨-, -, hc⟩ | ⟨-, -, hc⟩ := s.control_cases inp <;> rw [hc]
  · rfl
  · exact s.togglePause_out

/-- Settles O30: the outputs are functions of the state after the decay, and no other step writes them. -/
theorem outputsArePresentedAtTheEndOfAFrame : Obligations.OutputsArePresentedAtTheEndOfAFrame := by
  refine ⟨fun s hend => ⟨_, step_of_atFrameEnd hend, fun x y _ _ => rfl, decay_toNat s.st, ?_⟩, fun s t hne h => ?_⟩
  · have hmode {m : Mode} (h : s.mode = m) : s.endFrame.out.mode = m.code := congrArg Mode.code h
    have hcause {f : FaultCause} (h : s.faultCause = f) : s.endFrame.out.faultCause = f.code :=
      congrArg FaultCause.code h
    exact ⟨hmode, hmode, hmode, hmode, hcause, hcause, hcause, hcause, hcause, hcause, hcause⟩
  · obtain ⟨-, rfl⟩ | ⟨k, -, hcycle⟩ | ⟨hend, -⟩ := step_next_cases h
    · exact s.takeInput.control_out _
    · obtain ⟨-, hout, -⟩ := cycle_keeps hcycle
      exact hout
    · exact absurd hend hne

/-! ### Modes -/

/-- A listed piece of state that is as before need not be listed. -/
theorem State.OnlyWrites.of_cons {s t : State} {regs : Nibble → Prop} {p : Part} {parts : List Part}
    (h : s.OnlyWrites t regs (p :: parts)) (hp : p.Same s t) : s.OnlyWrites t regs parts := by
  refine ⟨h.1, fun q hq => ?_⟩
  by_cases hqp : q = p
  · exact hqp ▸ hp
  · exact h.2 q (List.not_mem_cons_of_ne_of_not_mem hqp hq)

/-- A faulted state inside a frame is at its end. -/
theorem State.atFrameEnd_of_faulted {s : State} (hm : s.mode = .faulted) (hphase : s.phase ≠ .frameStart) :
    s.AtFrameEnd := by
  cases hp : s.phase with
  | frameStart => exact absurd hp hphase
  | cycles left =>
    cases left with
    | zero => exact .inl hp
    | succ k => exact .inr ⟨k, hp, .inl hm⟩

/-- Settles O31: while Faulted a step is the start of a frame, where the toggle is ignored, or its end. -/
theorem faultedIsAbsorbingUntilReset : Obligations.FaultedIsAbsorbingUntilReset := by
  refine fun s hm => ⟨cycle_of_idle (.inl hm), fun hnoReset => ?_⟩
  by_cases hphase : s.phase = .frameStart
  · have hreset : s.nextInput.resetReq = false := Bool.eq_false_iff.mpr fun h => hnoReset ⟨hphase, h⟩
    obtain ⟨t, hstep, hkeys, -, hpc, hwrites, hno, -, -, hyes⟩ := pauseToggleFlipsTheModeOnly s hphase hreset
    have hmode : t.mode = .faulted := by
      cases htoggle : s.nextInput.pauseToggle with
      | true => exact hyes htoggle hm
      | false => exact (hno htoggle).trans hm
    have hwrites' : s.OnlyWrites t noRegs [.mode, .keys, .phase, .frames] := hwrites.mono (fun _ h => h) (by simp)
    refine ⟨t, hstep, hmode, hwrites.2 .faultCause (by simp), hpc,
      (hwrites'.of_cons (hmode.trans hm.symm)).mono (fun _ h => h) (by simp),
      fun _ => ⟨hkeys, hwrites.2 .delayTimer (by simp), hwrites.2 .soundTimer (by simp), hwrites.2 .outputs (by simp)⟩,
      fun hne => absurd hphase hne⟩
  · have hend := State.atFrameEnd_of_faulted hm hphase
    exact ⟨_, step_of_atFrameEnd hend, hm, rfl, rfl, s.onlyWrites_endFrame.mono (fun _ h => h) (by simp),
      fun hstart => absurd hstart hphase, fun _ => ⟨rfl, decay_toNat s.dt, decay_toNat s.st, rfl, rfl⟩⟩

/-- The opcode of the two bytes at `PC`. -/
theorem State.opcodeAtPc_of_bytes (s : State) :
    s.OpcodeAtPc (opcodeOfBytes (s.mem.byte s.pc.toNat) (s.mem.byte (s.pc.toNat + 1))) :=
  opcodeOfBytes_toNat _ _

theorem State.keys_ne_zero_of_keyDown {s : State} {k : Nat} (h : s.keyDown k = true) : s.keys ≠ 0 := by
  intro hz
  simp [State.keyDown, hz] at h

/-- The ways a cycle changes the mode: a fault, a key wait begun, a key wait completed. -/
theorem cycle_mode_cases {s t : State} (h : cycle s = .next t) : t.mode = s.mode ∨
    (s.mode = .running ∧ t.mode = .awaitingKey ∧ ∃ op, s.OpcodeAtPc op ∧ decodeOpcode op = .ok (.ldVxK t.waitReg)) ∨
    (s.mode = .running ∧ t.mode = .faulted ∧ t.faultCause ≠ .none) ∨
    (s.mode = .awaitingKey ∧ t.mode = .running ∧ s.keys ≠ 0) := by
  obtain ⟨-, rfl⟩ | ⟨hm, rfl⟩ | ⟨hm, f, hf, rfl⟩ | ⟨hm, -, i, hdecode, hexec, hc⟩ := cycle_next_cases h
  · exact .inl rfl
  · obtain ⟨k, -, hdown, -, hscan⟩ | ⟨-, hscan⟩ := s.keyWaitScan_cases <;> rw [hscan]
    · exact .inr (.inr (.inr ⟨hm, rfl, State.keys_ne_zero_of_keyDown hdown⟩))
    · exact .inl rfl
  · exact .inr (.inr (.inl ⟨hm, rfl, hf⟩))
  · obtain hmode | ⟨x, rfl, rfl⟩ := hc.mode_cases hexec
    · exact .inl hmode
    · exact .inr (.inl ⟨hm, rfl, _, s.opcodeAtPc_of_bytes, hdecode⟩)

/-- Settles O32: step 1 changes the mode by its controls, a cycle in three ways, the end of a frame not at all. -/
theorem modeChangesOnlyAsTheTableSays : Obligations.ModeChangesOnlyAsTheTableSays := by
  intro s t h
  obtain ⟨hphase, rfl⟩ | ⟨k, ⟨hphase, -⟩, hcycle⟩ | ⟨-, rfl⟩ := step_next_cases h
  · obtain ⟨hreset, hc⟩ | ⟨hreset, htoggle, hc⟩ | ⟨-, -, hc⟩ := s.takeInput.control_cases s.nextInput
    · exact .inr (.inl ⟨hphase, hreset, by rw [State.beginFrame_mode, hc]; rfl⟩)
    · have hmode : (s.takeInput.beginFrame s.nextInput).mode = s.takeInput.togglePause.mode := by
        rw [State.beginFrame_mode, hc]
      cases hm : s.mode with
      | running | awaitingKey =>
        have hpaused := hmode.trans (State.togglePause_mode_of_live (by simp [hm]))
        exact .inr (.inr (.inl ⟨hphase, hreset, htoggle, .inl ⟨by simp, hpaused⟩⟩))
      | paused =>
        have hrunning := hmode.trans (State.togglePause_mode_of_paused hm)
        exact .inr (.inr (.inl ⟨hphase, hreset, htoggle, .inr ⟨rfl, hrunning⟩⟩))
      | faulted => exact .inl (hmode.trans (State.togglePause_mode_of_faulted hm))
    · exact .inl (by rw [State.beginFrame_mode, hc]; rfl)
  · obtain hsame | ⟨hm, ht, hop⟩ | ⟨hm, ht, hf⟩ | ⟨hm, ht, hkeys⟩ := cycle_mode_cases hcycle
    · exact .inl hsame
    · exact .inr (.inr (.inr (.inl ⟨k, hphase, hm, ht, hop⟩)))
    · exact .inr (.inr (.inr (.inr (.inl ⟨k, hphase, hm, ht, hf⟩))))
    · exact .inr (.inr (.inr (.inr (.inr ⟨k, hphase, hm, ht, hkeys⟩))))
  · exact .inl rfl

/-! ### The frame as one event -/

/-- From inside a frame the steps run its cycles and end it, as the atomic event does. -/
theorem run_eq_endFrame_of_runCycles : ∀ (k : Nat) (s : State), s.phase = .cycles k →
    ∃ (n : Nat) (t : State), n ≤ k + 1 ∧ runCycles k s = .next t ∧ Host.Core.run Sys2Proof.core n s = .next t.endFrame
  | 0, s, hphase => ⟨1, s, Nat.le_refl 1, rfl, run_succ Sys2Proof.core 0 s _ (step_of_atFrameEnd (.inl hphase))⟩
  | k + 1, s, hphase => by
    cases hruns : s.mode.runsCycles with
    | false =>
      have hend : s.AtFrameEnd := s.atFrameEnd_iff.mpr (.inr ⟨k, hphase, hruns⟩)
      exact ⟨1, s, by omega, by simp [runCycles, hruns], run_succ Sys2Proof.core 0 s _ (step_of_atFrameEnd hend)⟩
    | true =>
      obtain ⟨u, hu⟩ := cycle_answers { s with phase := .cycles k }
      obtain ⟨-, -, huphase⟩ := cycle_keeps hu
      obtain ⟨n, t, hn, hcycles, hrun⟩ := run_eq_endFrame_of_runCycles k u huphase
      refine ⟨n + 1, t, by omega, by simp [runCycles, hruns, hu, hcycles], ?_⟩
      exact (run_succ Sys2Proof.core n s u ((step_of_cycleDue ⟨hphase, hruns⟩).trans hu)).trans hrun

theorem frame_of_runCycles {inp : FrameInput} {s t : State}
    (h : runCycles s.params.cyclesPerFrame (s.beginFrame inp) = .next t) : frame inp s = .next t.endFrame := by
  rw [frame, h]

/-- Settles O23: the first step begins the frame as the event does, and the others are its cycles and its end. -/
theorem stepsOfAFrameAreTheFrameEvent : Obligations.StepsOfAFrameAreTheFrameEvent := by
  intro s hphase
  obtain ⟨n, t, hn, hcycles, hrun⟩ := run_eq_endFrame_of_runCycles _ (s.takeInput.beginFrame s.nextInput) rfl
  exact ⟨n + 1, t.endFrame, Nat.succ_le_succ hn,
    (run_succ Sys2Proof.core n s _ (step_of_frameStart hphase)).trans hrun, frame_of_runCycles hcycles, rfl⟩

/-! ### Later frames of a finished program -/

/-- A state in which the cycle is the identity at every point of the frame runs through its cycles unchanged. -/
theorem runCycles_of_fixed {s : State}
    (h : ∀ phase, cycle { s with phase := phase } = .next { s with phase := phase }) :
    ∀ (k : Nat) (phase : Phase), ∃ phase', runCycles k { s with phase := phase } = .next { s with phase := phase' }
  | 0, phase => ⟨phase, rfl⟩
  | k + 1, phase => by
    cases hruns : s.mode.runsCycles with
    | false => exact ⟨phase, by simp [runCycles, hruns]⟩
    | true =>
      obtain ⟨phase', hrun⟩ := runCycles_of_fixed h k (.cycles k)
      exact ⟨phase', by simp [runCycles, hruns, h, hrun]⟩

/-- The ends of R205 are kept by the next frame's keys, at every point of the frame. -/
theorem State.Finished.withKeys {inputs : Nat → FrameInput} {s : State} (h : s.Finished inputs) (phase : Phase) :
    State.Finished (fun k => inputs (k + 1)) { s with keys := (inputs 0).keysIn, phase := phase } := by
  obtain hjump | ⟨hm, -, hin⟩ | hfaulted := h
  · exact .inl hjump
  · exact .inr (.inl ⟨hm, hin 0, fun k => hin (k + 1)⟩)
  · exact .inr (.inr hfaulted)

theorem State.beginFrame_of_noControls (s : State) {inputs : Nat → FrameInput} (h : NoControls inputs) :
    s.beginFrame (inputs 0) = { s with keys := (inputs 0).keysIn, phase := .cycles s.params.cyclesPerFrame } := by
  obtain ⟨hreset, htoggle⟩ := h 0
  simp only [State.beginFrame, s.control_of_noReset hreset, htoggle, Bool.false_eq_true, if_false]

/-- One frame of a finished program. -/
theorem frame_of_finished {inputs : Nat → FrameInput} {s : State} (h : s.Finished inputs) (hno : NoControls inputs) :
    ∃ t, frame (inputs 0) s = .next t ∧ t.Finished (fun k => inputs (k + 1)) ∧ t.pc = s.pc ∧
      s.OnlyWrites t noRegs [.keys, .delayTimer, .soundTimer, .outputs, .phase] := by
  obtain ⟨phase, hrun⟩ := runCycles_of_fixed (s := { s with keys := (inputs 0).keysIn })
    (fun phase => finishedProgramsAreFixedPointsOfTheCycle _ _ (h.withKeys phase))
    s.params.cyclesPerFrame (.cycles s.params.cyclesPerFrame)
  have hframe := frame_of_runCycles ((congrArg _ (s.beginFrame_of_noControls hno)).trans hrun)
  refine ⟨_, hframe, h.withKeys phase, rfl, ?_⟩
  exact ((s.onlyWrites_keys_phase _ _).trans (State.onlyWrites_endFrame _)).mono (by simp [noRegs]) (by simp)

/-- Settles O59, frame by frame. -/
theorem finishedProgramsKeepTheirStateInEveryLaterFrame :
    Obligations.FinishedProgramsKeepTheirStateInEveryLaterFrame := by
  intro inputs s n
  induction n generalizing inputs s with
  | zero =>
    exact fun h _ => ⟨s, rfl, h, rfl, (State.OnlyWrites.refl s).mono (fun _ h => h) (List.nil_subset _)⟩
  | succ n ih =>
    intro h hno
    obtain ⟨t, hframe, ht, hpc, hwrites⟩ := frame_of_finished h hno
    obtain ⟨u, hrun, hu, hpc', hwrites'⟩ := ih _ t ht fun k => hno (k + 1)
    refine ⟨u, (runFrames_succ inputs n s t hframe).trans hrun, ?_, hpc'.trans hpc,
      (hwrites.trans hwrites').mono (by simp) (by simp)⟩
    simpa only [Nat.add_assoc, Nat.add_comm, Nat.add_left_comm] using hu

end Sys2Proof.Machine
end
